-- ==== Sys2Proof/Word.lean ====
section
/-! DEFINITION. The words of the block, the constants of 00_scope.md R6, and the bus transaction of
30_encoding.md R59. -/

namespace Sys2Proof

/-- What one bus transaction carries on the controller side (R6, `BUS_BYTE_BITS`). -/
abbrev Byte := BitVec 8

/-- A logical register value or a video-RAM word (R6, `WORD_BITS`). -/
abbrev Word := BitVec 16

/-- A host access, a bus key or a logical word (R6 `BUS_ACCESS_BITS`, R59, R62). -/
abbrev BusWord := BitVec 32

/-- Largest legal Index Register value (R6, `IR_MAX`). -/
abbrev irMax : Nat := 0x12

/-- Words of video RAM (R6, `AC_RANGE`). -/
abbrev acRange : Nat := 0x1080

/-- Words of a row of the store (R6, `ROW_PITCH`). -/
abbrev rowPitch : Nat := 0x20

/-- Largest valid column of a row (R6, `LAST_VALID_COL`). -/
abbrev lastValidCol : Nat := 0x14

/-- Rows of the store (R6, `ROWS`). -/
abbrev rows : Nat := 132

/-- Valid columns of a row (R6, `VISIBLE_COLS_WORDS`). -/
abbrev visibleCols : Nat := 21

/-- A word index of video RAM, an integer in `[0, 0x1080)` (R26, R44). -/
abbrev VramIndex := Fin acRange

/-- Direction of a bus transaction, with the 32-bit write data of a write (R59: absent for a read). -/
inductive Access where
  | read
  | write (value : BusWord)
  deriving DecidableEq, Repr

/-- A bus transaction: one `read32` or `write32` at a device-relative offset (R36, R59). -/
structure BusTransaction where
  access : Access
  offset : Nat
  deriving DecidableEq, Repr

end Sys2Proof
end

