-- ==== Sys2Proof/Config.lean ====
section
/-! DEFINITION. The parameters the spec leaves open (00_scope.md R7), each a type of plain data, and the
free values of the four that have no default. A machine's values of them stand together in `Params`;
`RESET_STATE` is `ResetState`. -/

namespace Sys2Proof

/-- `LATCH_SHARING`: whether Command and Data writes share one write latch (R17, R88). -/
inductive LatchSharing where
  | perRegister
  | shared
  deriving DecidableEq, Repr

/-- `STATUS_WRITE_POLICY`: what a write of Control/status does (R81). -/
inductive StatusWritePolicy where
  | stubNoEffect
  | fatal
  deriving DecidableEq, Repr

/-- `CMD_READ_SOURCE`: which contrast value a Command read returns (R95). -/
inductive CmdReadSource where
  | ct
  | contrastImage
  deriving DecidableEq, Repr

/-- `INVERT_POLARITY`: the value of `REV` under which the palette index is complemented (R134). -/
inductive InvertPolarity where
  | complementWhenClear
  | complementWhenSet
  deriving DecidableEq, Repr

/-- `FIELD_LAYOUT`: the lowest bit of each field of the data words (R66). The widths are R13's, and a
field is a bit slice (R67). The invert flag has no entry: its position, bit 1, is fixed by the source. -/
structure FieldLayout where
  cms : Nat
  sgs : Nat
  nl  : Nat
  vr  : Nat
  ct  : Nat
  id  : Nat
  am  : Nat
  lg  : Nat
  rt  : Nat
  spt : Nat
  gsh : Nat
  gsl : Nat
  d   : Nat
  deriving DecidableEq, Repr

/-- `PIXEL_ORDER`: entry `j` is the bit pair of a word that holds the `j`-th pixel (R47). -/
abbrev PixelOrder := Vector (Fin 8) 8

/-- The three registers of the device interface (R37), by which a severity is chosen. -/
inductive DeviceRegister where
  | status
  | command
  | data
  deriving DecidableEq, Repr

/-- `SEVERITY`: "a severity chosen per register" (D20, 93_implementation_defined.md I18), a level for each. The
spec names no levels. -/
structure SeverityTable where
  status  : Nat
  command : Nat
  data    : Nat
  deriving DecidableEq, Repr, Inhabited

/-- The severity chosen for a register. -/
def SeverityTable.level (t : SeverityTable) : DeviceRegister → Nat
  | .status => t.status
  | .command => t.command
  | .data => t.data

/-- One machine's values of the parameters of R7, but for `RESET_STATE` and `VRAM_INIT`, which its construction
takes beside them. -/
structure Params where
  latchSharing      : LatchSharing
  statusValue       : BusWord
  statusWritePolicy : StatusWritePolicy
  cmdReadSource     : CmdReadSource
  layout            : FieldLayout
  idIncrement       : BitVec 1
  invertPolarity    : InvertPolarity
  pixelOrder        : PixelOrder
  lcdBase           : Nat
  severity          : SeverityTable
  deriving DecidableEq, Repr

/-- `RESET_STATE`: the initial values of the Index Register, the configuration fields and `AC` (R33). -/
structure ResetState where
  ir  : Word
  cms : BitVec 1
  sgs : BitVec 1
  nl  : BitVec 5
  vr  : BitVec 3
  ct  : BitVec 7
  id  : BitVec 1
  am  : BitVec 2
  lg  : BitVec 2
  rt  : BitVec 3
  spt : BitVec 1
  gsh : BitVec 2
  gsl : BitVec 2
  rev : BitVec 1
  d   : BitVec 1
  wm  : Word
  ac  : VramIndex
  deriving DecidableEq, Repr

/-- What R33 asks of `RESET_STATE`; its bound on `AC` is `VramIndex`'s. -/
abbrev ResetState.Legal (r : ResetState) : Prop := r.ir ≤ 0x12#16 ∧ r.am ≠ 0b11#2

/-- `STATUS_VALUE`: open, no default (R7, R80, D7). A free value: nothing in Lean can evaluate it.
DESIGN CHOICE, safe (log 8). -/
opaque Config.statusValue : BusWord

/-- `PIXEL_ORDER`: open, no default (R7, R47, D27). A free value. DESIGN CHOICE, safe (log 15). -/
opaque Config.pixelOrder : PixelOrder

/-- `LCD_BASE`: open, no default (R7, R36, D5, 93_implementation_defined.md I26). A free value. DESIGN CHOICE,
safe (log 23). -/
opaque Config.lcdBase : Nat

/-- `SEVERITY`: open, no default (R7, R141, D20). A free value. DESIGN CHOICE, safe (log 23). -/
opaque Config.severity : SeverityTable

end Sys2Proof
end

