-- ==== Sys2Proof/Syntax.lean ====
section
/-! DEFINITION. The instructions: one constructor per row of spec/opcode_table.json. The first seven are
bus transactions (format `bus`, 30_encoding.md R71), the others logical writes (format `logical`, R70)
with the assembled 16-bit value `V` as operand. -/

namespace Sys2Proof

/-- One constructor per row of the opcode table, in the table's order. -/
inductive Instr where
  /-- `RD_STATUS` (R80) -/
  | rdStatus
  /-- `WR_STATUS` (R81) -/
  | wrStatus (value : BusWord)
  /-- `RD_CMD` (R82) -/
  | rdCmd
  /-- `WR_CMD` (R83, R88) -/
  | wrCmd (value : BusWord)
  /-- `RD_DATA` (R86) -/
  | rdData
  /-- `WR_DATA` (R85, R88) -/
  | wrData (value : BusWord)
  /-- `UNMAPPED` (R87): an access to an offset that is none of the three registers -/
  | unmapped (access : Access) (offset : Nat)
  /-- `SET_IR` (R93) -/
  | setIr (v : Word)
  /-- `DATA_R00` (R126) -/
  | dataR00 (v : Word)
  /-- `DATA_DRIVER_OUTPUT` (R98) -/
  | dataDriverOutput (v : Word)
  /-- `DATA_R02` (R125) -/
  | dataR02 (v : Word)
  /-- `DATA_R03` (R125) -/
  | dataR03 (v : Word)
  /-- `DATA_CONTRAST` (R99) -/
  | dataContrast (v : Word)
  /-- `DATA_ENTRY_MODE` (R100, R101) -/
  | dataEntryMode (v : Word)
  /-- `DATA_ROTATION` (R102) -/
  | dataRotation (v : Word)
  /-- `DATA_DISPLAY_CONTROL` (R103) -/
  | dataDisplayControl (v : Word)
  /-- `DATA_R08` (R125) -/
  | dataR08 (v : Word)
  /-- `DATA_NOP_09` (R104) -/
  | dataNop09 (v : Word)
  /-- `DATA_NOP_0A` (R104) -/
  | dataNop0A (v : Word)
  /-- `DATA_HCURSOR` (R125) -/
  | dataHcursor (v : Word)
  /-- `DATA_R0C` (R125) -/
  | dataR0C (v : Word)
  /-- `DATA_R0D` (R125) -/
  | dataR0D (v : Word)
  /-- `DATA_R0E` (R125) -/
  | dataR0E (v : Word)
  /-- `DATA_R0F` (R126) -/
  | dataR0F (v : Word)
  /-- `DATA_WRITE_MASK` (R105) -/
  | dataWriteMask (v : Word)
  /-- `DATA_RAM_ADDRESS` (R111) -/
  | dataRamAddress (v : Word)
  /-- `DATA_WRITE_CGRAM` (R113 to R117) -/
  | dataWriteCgram (v : Word)
  deriving DecidableEq, Repr

end Sys2Proof
end

