-- ==== Sys2Proof/WellFormed.lean ====
section
/-! DEFINITION. Which terms of `Instr` are instructions: an `UNMAPPED` access is one to an offset that is
none of the three registers (20_memory.md R37, R38). Every other term is an instruction, whatever its
operand (30_encoding.md R60, R68). -/

namespace Sys2Proof

/-- The offsets of Control/status, Command and Data (R37), decoded by exact equality (R38). -/
def isRegisterOffset (offset : Nat) : Bool :=
  offset == 0x0 || offset == 0x8 || offset == 0x10

/-- The check of an instruction's form. -/
def Instr.wellFormed : Instr → Bool
  | .rdStatus => true
  | .wrStatus _ => true
  | .rdCmd => true
  | .wrCmd _ => true
  | .rdData => true
  | .wrData _ => true
  | .unmapped _ offset => !isRegisterOffset offset
  | .setIr _ => true
  | .dataR00 _ => true
  | .dataDriverOutput _ => true
  | .dataR02 _ => true
  | .dataR03 _ => true
  | .dataContrast _ => true
  | .dataEntryMode _ => true
  | .dataRotation _ => true
  | .dataDisplayControl _ => true
  | .dataR08 _ => true
  | .dataNop09 _ => true
  | .dataNop0A _ => true
  | .dataHcursor _ => true
  | .dataR0C _ => true
  | .dataR0D _ => true
  | .dataR0E _ => true
  | .dataR0F _ => true
  | .dataWriteMask _ => true
  | .dataRamAddress _ => true
  | .dataWriteCgram _ => true

end Sys2Proof
end

