-- ==== Sys2Proof/Decode.lean ====
section
/-! DEFINITION. The two decode keys of 30_encoding.md: the bus key of a bus transaction (R59) and the
logical word of a completed logical write (R62), their decoder, and after it the encoder.
A code carries its format, as a row of the opcode table does: the two key spaces overlap as numbers. -/

namespace Sys2Proof

/-- An instruction as bits: a bus key with the write data that goes with it (R59), or a logical word (R62). -/
inductive Code where
  | bus (key value : BusWord)
  | logical (word : BusWord)
  deriving DecidableEq, Repr

/-- Why a code is no instruction. A bus key always is one (R79). -/
inductive DecodeError where
  /-- `L[31:30]` names neither Command nor Data; `0b00` and `0b11` do not occur (R62). -/
  | noSuchRegister (reg : BitVec 2)
  /-- `L[29]` of a Data word is set; R62 fixes it at 0 and no row of the table has it set. -/
  | reservedBit29
  deriving DecidableEq, Repr

/-! ## The bus layer -/

/-- The write data of an access; a read carries none (R59) and counts as 0 here. -/
def Access.value : Access → BusWord
  | .read => 0#32
  | .write value => value

/-- `W` of the bus key (R59). -/
def Access.writeBit : Access → BitVec 1
  | .read => 0#1
  | .write _ => 1#1

/-- The bus key `K`: `W` at bit 31 and the offset below it; an offset of `2^31` or more has none (R59). -/
def busKey (t : BusTransaction) : Option BusWord :=
  if t.offset < 2 ^ 31 then some (t.access.writeBit ++ BitVec.ofNat 31 t.offset) else none

/-- The access a key and its write data stand for. -/
def keyAccess (key value : BusWord) : Access :=
  if key.getLsbD 31 then .write value else .read

/-- The offset of a key, `K[30:0]` (R59). -/
def keyOffset (key : BusWord) : Nat :=
  (key.extractLsb' 0 31).toNat

/-- The bus transaction a key and its write data stand for. -/
def keyTransaction (key value : BusWord) : BusTransaction :=
  ⟨keyAccess key value, keyOffset key⟩

/-- R71: six keys select the six register rows, every other key `UNMAPPED`. -/
def decodeKey (key value : BusWord) : Instr :=
  if key = 0x00000000#32 then .rdStatus
  else if key = 0x80000000#32 then .wrStatus value
  else if key = 0x00000008#32 then .rdCmd
  else if key = 0x80000008#32 then .wrCmd value
  else if key = 0x00000010#32 then .rdData
  else if key = 0x80000010#32 then .wrData value
  else .unmapped (keyAccess key value) (keyOffset key)

/-- R71, R87: a transaction is decoded by its key; one whose offset has no key is `UNMAPPED`. -/
def decodeBus (t : BusTransaction) : Instr :=
  match busKey t with
  | some key => decodeKey key t.access.value
  | none => .unmapped t.access t.offset

/-! ## The logical layer -/

/-- `V`, bits 15 to 0 of a logical word (R62). -/
def wordValue (l : BusWord) : Word := l.extractLsb' 0 16

/-- `REG`, bits 31 and 30 of a logical word (R62). -/
def wordReg (l : BusWord) : BitVec 2 := l.extractLsb' 30 2

/-- `IRX`, bits 28 to 24 of a logical word (R62). -/
def wordIrx (l : BusWord) : BitVec 5 := l.extractLsb' 24 5

/-- The logical word of a Command write (R63). -/
def commandWord (v : Word) : BusWord :=
  0x40000000#32 ||| v.setWidth 32

/-- The logical word of a Data write: `IRX` is `IR[4:0]` (R62, R64). -/
def dataWord (ir v : Word) : BusWord :=
  0x80000000#32 ||| ((ir.extractLsb' 0 5).setWidth 32 <<< 24) ||| v.setWidth 32

/-- R70: the Data row that `IRX` selects. An `IRX` above 0x12 cannot arise and is undefined dispatch (R79),
for which `DATA_R0F` stands. DEDUCED, safe (log 18). -/
def decodeData (irx : Nat) (v : Word) : Instr :=
  match irx with
  | 0x00 => .dataR00 v
  | 0x01 => .dataDriverOutput v
  | 0x02 => .dataR02 v
  | 0x03 => .dataR03 v
  | 0x04 => .dataContrast v
  | 0x05 => .dataEntryMode v
  | 0x06 => .dataRotation v
  | 0x07 => .dataDisplayControl v
  | 0x08 => .dataR08 v
  | 0x09 => .dataNop09 v
  | 0x0A => .dataNop0A v
  | 0x0B => .dataHcursor v
  | 0x0C => .dataR0C v
  | 0x0D => .dataR0D v
  | 0x0E => .dataR0E v
  | 0x0F => .dataR0F v
  | 0x10 => .dataWriteMask v
  | 0x11 => .dataRamAddress v
  | 0x12 => .dataWriteCgram v
  | _ => .dataR0F v

/-- R62 to R64, R70: a logical word is decoded by `REG`, and a Data word by `IRX` alone. Bits the table's
masks leave free are not looked at. DEDUCED, safe (log 18). -/
def decodeLogical (l : BusWord) : Except DecodeError Instr :=
  if wordReg l = 0b01#2 then .ok (.setIr (wordValue l))
  else if wordReg l = 0b10#2 then
    if l.getLsbD 29 then .error .reservedBit29
    else .ok (decodeData (wordIrx l).toNat (wordValue l))
  else .error (.noSuchRegister (wordReg l))

/-- The decoder: total on the bits of either format. -/
def decode : Code → Except DecodeError Instr
  | .bus key value => .ok (decodeKey key value)
  | .logical word => decodeLogical word

/-! ## The encoder -/

/-- The code of an instruction, from R59 for a bus row and R62 to R64 for a logical row. An unmapped access
at an offset of `2^31` or more has no key (R59). -/
def encode : Instr → Option Code
  | .rdStatus => some (.bus 0x00000000#32 0#32)
  | .wrStatus value => some (.bus 0x80000000#32 value)
  | .rdCmd => some (.bus 0x00000008#32 0#32)
  | .wrCmd value => some (.bus 0x80000008#32 value)
  | .rdData => some (.bus 0x00000010#32 0#32)
  | .wrData value => some (.bus 0x80000010#32 value)
  | .unmapped access offset => (busKey ⟨access, offset⟩).map fun key => .bus key access.value
  | .setIr v => some (.logical (commandWord v))
  | .dataR00 v => some (.logical (dataWord 0x00#16 v))
  | .dataDriverOutput v => some (.logical (dataWord 0x01#16 v))
  | .dataR02 v => some (.logical (dataWord 0x02#16 v))
  | .dataR03 v => some (.logical (dataWord 0x03#16 v))
  | .dataContrast v => some (.logical (dataWord 0x04#16 v))
  | .dataEntryMode v => some (.logical (dataWord 0x05#16 v))
  | .dataRotation v => some (.logical (dataWord 0x06#16 v))
  | .dataDisplayControl v => some (.logical (dataWord 0x07#16 v))
  | .dataR08 v => some (.logical (dataWord 0x08#16 v))
  | .dataNop09 v => some (.logical (dataWord 0x09#16 v))
  | .dataNop0A v => some (.logical (dataWord 0x0A#16 v))
  | .dataHcursor v => some (.logical (dataWord 0x0B#16 v))
  | .dataR0C v => some (.logical (dataWord 0x0C#16 v))
  | .dataR0D v => some (.logical (dataWord 0x0D#16 v))
  | .dataR0E v => some (.logical (dataWord 0x0E#16 v))
  | .dataR0F v => some (.logical (dataWord 0x0F#16 v))
  | .dataWriteMask v => some (.logical (dataWord 0x10#16 v))
  | .dataRamAddress v => some (.logical (dataWord 0x11#16 v))
  | .dataWriteCgram v => some (.logical (dataWord 0x12#16 v))

/-- The codes that R59 and R62 write: a read carries no data; a logical word has its zero bits zero,
`IRX` 0 for Command, and `IRX` at most 0x12 for Data. -/
def Code.canonical : Code → Bool
  | .bus key value => key.getLsbD 31 || value == 0#32
  | .logical l =>
    l.getLsbD 29 == false && l.extractLsb' 16 8 == 0#8 &&
      ((wordReg l == 0b01#2 && wordIrx l == 0#5) || (wordReg l == 0b10#2 && decide (wordIrx l ≤ 0x12#5)))

/-! ## The opcode table -/

/-- The `format` column of spec/opcode_table.json. -/
inductive Format where
  | bus
  | logical
  deriving DecidableEq, Repr

/-- One row of spec/opcode_table.json: its format, its match and its mask. -/
structure OpcodeRow where
  format  : Format
  pattern : BusWord
  mask    : BusWord
  deriving DecidableEq, Repr

/-- The row of an instruction, as the table has it. -/
def opcodeRow : Instr → OpcodeRow
  | .rdStatus => ⟨.bus, 0x00000000#32, 0xFFFFFFFF#32⟩
  | .wrStatus _ => ⟨.bus, 0x80000000#32, 0xFFFFFFFF#32⟩
  | .rdCmd => ⟨.bus, 0x00000008#32, 0xFFFFFFFF#32⟩
  | .wrCmd _ => ⟨.bus, 0x80000008#32, 0xFFFFFFFF#32⟩
  | .rdData => ⟨.bus, 0x00000010#32, 0xFFFFFFFF#32⟩
  | .wrData _ => ⟨.bus, 0x80000010#32, 0xFFFFFFFF#32⟩
  | .unmapped _ _ => ⟨.bus, 0x00000000#32, 0x00000000#32⟩
  | .setIr _ => ⟨.logical, 0x40000000#32, 0xC0000000#32⟩
  | .dataR00 _ => ⟨.logical, 0x80000000#32, 0xFF000000#32⟩
  | .dataDriverOutput _ => ⟨.logical, 0x81000000#32, 0xFF000000#32⟩
  | .dataR02 _ => ⟨.logical, 0x82000000#32, 0xFF000000#32⟩
  | .dataR03 _ => ⟨.logical, 0x83000000#32, 0xFF000000#32⟩
  | .dataContrast _ => ⟨.logical, 0x84000000#32, 0xFF000000#32⟩
  | .dataEntryMode _ => ⟨.logical, 0x85000000#32, 0xFF000000#32⟩
  | .dataRotation _ => ⟨.logical, 0x86000000#32, 0xFF000000#32⟩
  | .dataDisplayControl _ => ⟨.logical, 0x87000000#32, 0xFF000000#32⟩
  | .dataR08 _ => ⟨.logical, 0x88000000#32, 0xFF000000#32⟩
  | .dataNop09 _ => ⟨.logical, 0x89000000#32, 0xFF000000#32⟩
  | .dataNop0A _ => ⟨.logical, 0x8A000000#32, 0xFF000000#32⟩
  | .dataHcursor _ => ⟨.logical, 0x8B000000#32, 0xFF000000#32⟩
  | .dataR0C _ => ⟨.logical, 0x8C000000#32, 0xFF000000#32⟩
  | .dataR0D _ => ⟨.logical, 0x8D000000#32, 0xFF000000#32⟩
  | .dataR0E _ => ⟨.logical, 0x8E000000#32, 0xFF000000#32⟩
  | .dataR0F _ => ⟨.logical, 0x8F000000#32, 0xFF000000#32⟩
  | .dataWriteMask _ => ⟨.logical, 0x90000000#32, 0xFF000000#32⟩
  | .dataRamAddress _ => ⟨.logical, 0x91000000#32, 0xFF000000#32⟩
  | .dataWriteCgram _ => ⟨.logical, 0x92000000#32, 0xFF000000#32⟩

/-- Whether a code lies in a row: its format is the row's and its key agrees with the row under the mask. -/
def OpcodeRow.holds (r : OpcodeRow) : Code → Bool
  | .bus key _ => r.format == .bus && key &&& r.mask == r.pattern
  | .logical word => r.format == .logical && word &&& r.mask == r.pattern

/-! ## A word of the table without its format -/

/-- Whether a number is one of the six register keys of R59. -/
def isRegisterKey (key : BusWord) : Bool :=
  key == 0x00000000#32 || key == 0x80000000#32 || key == 0x00000008#32 || key == 0x80000008#32 ||
    key == 0x00000010#32 || key == 0x80000010#32

/-- Whether a number lies in one of the table's logical rows. -/
def isLogicalWord (l : BusWord) : Bool :=
  wordReg l == 0b01#2 || (wordReg l == 0b10#2 && l.getLsbD 29 == false && decide (wordIrx l ≤ 0x12#5))

/-- The code of a table word given as a bare number, bits 31 to 0 the key and bits 63 to 32 the write data.
The number does not say its format: a register key is read as format `bus`, else a number in a logical row
as format `logical`, else as a bus key. DESIGN CHOICE, safe (log 19). -/
def tableCode (nbits w : Nat) : Code :=
  let key := BitVec.ofNat 32 (w % 2 ^ nbits)
  let value := BitVec.ofNat 32 (w % 2 ^ nbits / 2 ^ 32)
  if isRegisterKey key then .bus key value
  else if isLogicalWord key then .logical key
  else .bus key value

/-- The instruction the decoder reads from a table word. -/
def decodeTableWord (nbits w : Nat) : Option Instr :=
  match decode (tableCode nbits w) with
  | .ok i => some i
  | .error _ => none

end Sys2Proof
end

