-- ==== Sys2Proof/Machine/Defaults.lean ====
section
/-! DEFINITION. The default values of the parameters (00_scope.md R7), which `State.reset` takes. No
definition of a meaning uses them: a meaning reads the parameters the state carries. -/

namespace Sys2Proof.Machine

/-- The default `FIELD_LAYOUT` of 30_encoding.md R66. PRESUMED (the spec marks it general knowledge, G1),
unsafe (log 12). -/
def defaultLayout : FieldLayout :=
  { cms := 9, sgs := 8, nl := 0
    vr := 8, ct := 0
    id := 4, am := 2, lg := 0
    rt := 0
    spt := 8, gsh := 4, gsl := 2, d := 0 }

/-- The defaults of R7; the four parameters with none are free values. DESIGN CHOICE, unsafe (log 9 to 14),
safe for the free values (log 8, log 15, log 23). -/
def defaultParams : Params :=
  { latchSharing := .perRegister
    statusValue := Config.statusValue
    statusWritePolicy := .stubNoEffect
    cmdReadSource := .ct
    layout := defaultLayout
    idIncrement := 1#1
    invertPolarity := .complementWhenClear
    pixelOrder := Config.pixelOrder
    lcdBase := Config.lcdBase
    severity := Config.severity }

/-- The default `RESET_STATE`: zero everywhere (R33, D16). DESIGN CHOICE, unsafe (log 6). -/
def defaultResetState : ResetState :=
  { ir := 0, cms := 0, sgs := 0, nl := 0, vr := 0, ct := 0, id := 0, am := 0, lg := 0, rt := 0
    spt := 0, gsh := 0, gsl := 0, rev := 0, d := 0, wm := 0, ac := ⟨0, by decide⟩ }

end Sys2Proof.Machine
end

