-- ==== Sys2Proof/Machine/State.lean ====
section
/-! DEFINITION. The state: one field per row of 10_state.md R13, then the fields that are the model's own;
results and their causes (60_exceptions.md R139, R141); the reasons a step stops; reset. -/

namespace Sys2Proof.Machine

/-- Video RAM (R27): the words that are listed, by word index, in one canonical form (`Vram.wf`, in
Machine/Ops.lean). 16-bit words, the only unit the spec gives the store (R44). DESIGN CHOICE, safe (log 17). -/
abbrev Vram := List (Nat × Word)

/-- The cause record a result carries (R141). -/
inductive Cause where
  /-- a logical Command write of a value above 0x12 -/
  | irOutOfRange (value : Word)
  /-- an Entry Mode write with `AM = 0b11` -/
  | amInvalid (value : Word)
  /-- a Data write to a command the source does not emulate -/
  | unimplemented (command : Word)
  /-- a Data write with an Index Register value that has no command -/
  | undefinedDispatch (command : Word)
  /-- a video-RAM write with an advance mode that is not implemented -/
  | amUnimplemented (am : BitVec 2)
  /-- a read of the Data register -/
  | dataRead
  /-- a write of the Control/status register -/
  | statusWrite
  /-- an access to an offset that is no register -/
  | unmapped (offset : Nat)
  deriving DecidableEq, Repr

/-- The result of a bus transaction (R10, R139). -/
inductive Result where
  /-- `Ok()`: success of a write -/
  | ok
  /-- `Ok(value)`: success of a read -/
  | okValue (value : BusWord)
  | unmapped (cause : Cause)
  /-- never returned by this block (R140) -/
  | stubRead (value : BusWord)
  | stubWrite (cause : Cause)
  | contractViolation (cause : Cause)
  | fatalError (cause : Cause)
  deriving DecidableEq, Repr

/-- One access of one of the two agents (R5): the bus master's transactions, and the display reader's
`SNAPSHOT()` (R131) and `READ_INVERT()` (R132). -/
inductive Event where
  | bus (t : BusTransaction)
  | snapshot
  | readInvert
  deriving DecidableEq, Repr

/-- The state of the block and of the model around it. Plain data. -/
structure State where
  /-- pending first byte of a Command write pair, under `PerRegister` (R17) -/
  wlCmd  : Option Byte
  /-- pending first byte of a Data write pair, under `PerRegister` (R17) -/
  wlData : Option Byte
  /-- pending first byte of a write pair, under `Shared` (R17) -/
  wl     : Option Byte
  /-- pending low byte of a Command read pair (R18) -/
  rlCmd  : Option Byte
  /-- Index Register (R19) -/
  ir     : Word
  /-- Driver Output Control (R20) -/
  cms    : BitVec 1
  sgs    : BitVec 1
  nl     : BitVec 5
  /-- Contrast Control (R21) -/
  vr     : BitVec 3
  ct     : BitVec 7
  /-- Entry Mode (R22); `id` is the source's I/D -/
  id     : BitVec 1
  am     : BitVec 2
  lg     : BitVec 2
  /-- Rotation (R23) -/
  rt     : BitVec 3
  /-- Display Control (R24); `rev` is the invert flag -/
  spt    : BitVec 1
  gsh    : BitVec 2
  gsl    : BitVec 2
  rev    : BitVec 1
  d      : BitVec 1
  /-- Write Data Mask (R25) -/
  wm     : Word
  /-- Address Counter (R26) -/
  ac     : VramIndex
  /-- video RAM (R27) -/
  vram   : Vram
  /-- whether a transaction has returned `FatalError` (R28) -/
  halted : Bool
  /-- the model's own: the machine's parameters (R7, R31), which no step writes (log 1) -/
  params : Params
  /-- the model's own: the accesses still to come, in the order of the schedule (log 2) -/
  pending : List Event
  /-- the model's own: the result of the last bus transaction (log 4) -/
  result : Option Result
  /-- the model's own: what the display reader's last `SNAPSHOT()` returned (log 22) -/
  snapshot : Option Vram
  /-- the model's own: what the display reader's last `READ_INVERT()` returned (log 22) -/
  invertRead : Option (BitVec 1)
  deriving DecidableEq, Repr

/-- Why a step stops. -/
inductive Fault where
  /-- Raised by every meaning when the block is halted: a halted block takes no transaction (R142), so there
  is no step. Safe: the spec gives the transaction no effect. -/
  | halted
  deriving DecidableEq, Repr

/-- Why an instruction is refused. -/
inductive Refusal where
  /-- Raised by an arm of `exec` whose instruction has no meaning yet; no arm is one. Safe. -/
  | notModelled (mnemonic : String)
  deriving DecidableEq, Repr

/-- The block as constructed (R33, R157) for given parameters, `RESET_STATE` and `VRAM_INIT`: latches empty,
not halted, and nothing asked of it yet. -/
def State.resetWith (p : Params) (r : ResetState) (init : Vram) : State :=
  { wlCmd := none, wlData := none, wl := none, rlCmd := none
    ir := r.ir
    cms := r.cms, sgs := r.sgs, nl := r.nl
    vr := r.vr, ct := r.ct
    id := r.id, am := r.am, lg := r.lg
    rt := r.rt
    spt := r.spt, gsh := r.gsh, gsl := r.gsl, rev := r.rev, d := r.d
    wm := r.wm
    ac := r.ac
    vram := init
    halted := false
    params := p
    pending := [], result := none, snapshot := none, invertRead := none }

/-- The machine right after reset, with the defaults of R7 and no word of video RAM listed (log 6, log 7). -/
def State.reset : State :=
  State.resetWith defaultParams defaultResetState []

end Sys2Proof.Machine
end

