-- ==== Sys2Proof/Machine/Flags.lean ====
section
/-! DEFINITION. The block has no status flags and no condition codes (10_state.md R15): the outcome of a
transaction is its result alone. This file holds what a result tells the bus master (60_exceptions.md R139). -/

namespace Sys2Proof.Machine

/-- The numeric code of a result (R139; the codes are D20, log 24). -/
def Result.code : Result → Nat
  | .ok => 0
  | .okValue _ => 0
  | .unmapped _ => 1
  | .stubRead _ => 2
  | .stubWrite _ => 3
  | .contractViolation _ => 4
  | .fatalError _ => 5

/-- "`FatalError` is the only variant that must terminate the run loop" (R139). -/
def Result.continues : Result → Bool
  | .fatalError _ => false
  | .ok => true
  | .okValue _ => true
  | .unmapped _ => true
  | .stubRead _ => true
  | .stubWrite _ => true
  | .contractViolation _ => true

/-- Whether a result is `Ok` (R10, R29). -/
def Result.isOk : Result → Bool
  | .ok => true
  | .okValue _ => true
  | .unmapped _ => false
  | .stubRead _ => false
  | .stubWrite _ => false
  | .contractViolation _ => false
  | .fatalError _ => false

/-- The severity that the result of an access to a register carries, under the parameter `SEVERITY`: "the severity a
stub or violation result carries" (R7, R10). For logging: no rule reads it (R141; log 23). -/
def Result.severity (p : Params) (reg : DeviceRegister) : Result → Option Nat
  | .ok => none
  | .okValue _ => none
  | .unmapped _ => none
  | .stubRead _ => some (p.severity.level reg)
  | .stubWrite _ => some (p.severity.level reg)
  | .contractViolation _ => some (p.severity.level reg)
  | .fatalError _ => none

end Sys2Proof.Machine
end

