-- ==== Sys2Proof/Machine/Operands.lean ====
section
/-! DEFINITION. Operand forms and the block's arithmetic (43_vram_and_address_counter.md R123): the byte of a
bus write, the byte pair, field slices, the rotation, the combine and mask operations, and the Address
Counter's step. All unsigned. -/

namespace Sys2Proof.Machine

/-! ## Bytes of the bus -/

/-- The byte a write carries, `value[7:0]` (R42, R60; D4, log 24). -/
def byteOf (value : BusWord) : Byte := value.extractLsb' 0 8

/-- The 16-bit value two bytes make, high byte first: `(first << 8) | second` (R41, R61). -/
def bytePair (first second : Byte) : Word :=
  (first.setWidth 16 <<< 8) ||| second.setWidth 16

/-- The high byte of a logical value, the first on the bus (R41). -/
def highByte (v : Word) : Byte := v.extractLsb' 8 8

/-- The low byte of a logical value, the second on the bus (R41). -/
def lowByte (v : Word) : Byte := v.extractLsb' 0 8

/-- What a byte-latched read returns, `zext_32(byte)` (R42). -/
def readReply (b : Byte) : BusWord := b.setWidth 32

/-! ## Fields of the data words -/

/-- The field of `width` bits whose lowest bit is `lo` (R8, R67). Bits outside every field are ignored (R68). -/
def field (v : Word) (lo width : Nat) : BitVec width := v.extractLsb' lo width

/-- The position of the invert flag, the one position the source gives (R66). -/
def revPosition : Nat := 1

/-! ## Words of video RAM -/

/-- `rotl16` (R8). -/
def rotl16 (v : Word) (n : Nat) : Word :=
  (v <<< (n % 16)) ||| (v >>> (16 - n % 16))

/-- The rotation of an incoming word, by `RT * 2` bits (R113 (a)). -/
def rotateIn (rt : BitVec 3) (v : Word) : Word := rotl16 v (2 * rt.toNat)

/-- `Combine(LG, old, r)` (R114; the order beyond `0b00` is D35, log 24). -/
def combine (lg : BitVec 2) (old r : Word) : Word :=
  if lg = 0b00#2 then r
  else if lg = 0b01#2 then old ||| r
  else if lg = 0b10#2 then old &&& r
  else old ^^^ r

/-- R113 (c): "bits set in WM retain the old value, bits clear in WM take the new combined value". -/
def mergeMask (wm old c : Word) : Word :=
  (old &&& wm) ||| (c &&& ~~~wm)

/-- The word a video-RAM write stores: rotate, combine, mask (R113 (a) to (c)). -/
def storedWord (rt : BitVec 3) (lg : BitVec 2) (wm old v : Word) : Word :=
  mergeMask wm old (combine lg old (rotateIn rt v))

/-! ## The Address Counter -/

/-- The row of a word index (R45). -/
def vramRow (a : Nat) : Nat := a / rowPitch

/-- The column of a word index (R45). -/
def vramCol (a : Nat) : Nat := a % rowPitch

/-- Whether a column is valid (R46). -/
def validCol (col : Nat) : Bool := decide (col ≤ lastValidCol)

/-- The direction `d` of an Address Counter step (R8). -/
inductive Direction where
  | increment
  | decrement
  deriving DecidableEq, Repr

/-- `d` as the integer `+1` or `-1` (R8). -/
def Direction.delta : Direction → Int
  | .increment => 1
  | .decrement => -1

/-- The direction that `ID` gives, under the parameter `ID_INCREMENT` (R69, R113 (e)). -/
def stepDirection (idIncrement id : BitVec 1) : Direction :=
  if id = idIncrement then .increment else .decrement

/-- `AcNext(a, d)` (R117): the Euclidean global modulus, then the valid-column clamp of the row landed in,
to the start of the next row or to the end of the row's valid range (D13, log 24; log 28). -/
def acNext (a : Nat) (d : Direction) : Nat :=
  let t := (((a : Int) + d.delta) % (acRange : Int)).toNat
  if validCol (vramCol t) then t
  else
    match d with
    | .increment => ((vramRow t + 1) * rowPitch) % acRange
    | .decrement => vramRow t * rowPitch + lastValidCol

/-- A number reduced `mod 0x1080`, as RAM Address Set reduces its value (R111). -/
def toVramIndex (n : Nat) : VramIndex := ⟨n % acRange, Nat.mod_lt n (by decide)⟩

end Sys2Proof.Machine
end

