-- ==== Sys2Proof/Machine/Ops.lean ====
section
/-! DEFINITION. The shared operations: video RAM, the byte latches, the results of a transaction, and the
check every transaction begins with. -/

namespace Sys2Proof.Machine

/-! ## Video RAM -/

/-- What a word that is not listed reads as (`VRAM_INIT` of R7: "all zero in the simulation default").
Other initial contents are listed words. DESIGN CHOICE, unsafe (log 7). -/
def vramUnlisted : Word := 0#16

/-- `VramRead(a)` (R9, R44). -/
def vramRead : Vram → Nat → Word
  | [], _ => vramUnlisted
  | (k, w) :: m, a => if k = a then w else vramRead m a

/-- `VramWrite(a, v)` (R9, R44), keeping the canonical form. -/
def vramWrite : Vram → Nat → Word → Vram
  | [], a, v => if v = vramUnlisted then [] else [(a, v)]
  | (k, w) :: m, a, v =>
    if k < a then (k, w) :: vramWrite m a v
    else if k = a then (if v = vramUnlisted then m else (a, v) :: m)
    else (if v = vramUnlisted then (k, w) :: m else (a, v) :: (k, w) :: m)

/-- The canonical form from an index on: indexes strictly rising and below 0x1080, no word listed that reads
as an unlisted one does. -/
def vramWfFrom : Nat → Vram → Bool
  | _, [] => true
  | lo, (k, w) :: m => decide (lo ≤ k) && decide (k < acRange) && decide (w ≠ vramUnlisted) && vramWfFrom (k + 1) m

/-- The canonical form of video RAM: equal contents are equal lists. -/
def Vram.wf (m : Vram) : Bool := vramWfFrom 0 m

/-! ## The byte latches -/

/-- The two registers that have a write latch (R17). -/
inductive LatchReg where
  | command
  | data
  deriving DecidableEq, Repr

/-- The write latch that governs a write to a register (R61, R88). -/
def State.writeLatch (s : State) : LatchReg → Option Byte
  | .command =>
    match s.params.latchSharing with
    | .perRegister => s.wlCmd
    | .shared => s.wl
  | .data =>
    match s.params.latchSharing with
    | .perRegister => s.wlData
    | .shared => s.wl

/-- Setting the write latch that governs a write to a register (R61, R88). -/
def State.setWriteLatch (s : State) (r : LatchReg) (o : Option Byte) : State :=
  match s.params.latchSharing, r with
  | .perRegister, .command => { s with wlCmd := o }
  | .perRegister, .data => { s with wlData := o }
  | .shared, _ => { s with wl := o }

/-! ## Results -/

/-- A transaction returns its result (R139). -/
def State.reply (s : State) (r : Result) : State := { s with result := some r }

/-- `raise ContractViolation(info)` (R9, R144): the result, and nothing else. -/
def State.raiseViolation (s : State) (c : Cause) : State := s.reply (.contractViolation c)

/-- `raise FatalError(info)` (R9, R142, R143): the result, and the halt. -/
def State.raiseFatal (s : State) (c : Cause) : State := { s.reply (.fatalError c) with halted := true }

/-- R90 (1), R142: a halted block takes no transaction. -/
def whenRunning (s : State) (o : Host.Outcome State Fault Refusal) : Host.Outcome State Fault Refusal :=
  if s.halted then .fault .halted else o

/-! ## A byte-latched write -/

/-- R61, R83, R85, R88: the first byte of a pair is latched; the second drains the latch and completes the
16-bit value, on which the logical write runs. -/
def latchWrite (r : LatchReg) (value : BusWord) (s : State)
    (logicalWrite : Word → State → Host.Outcome State Fault Refusal) : Host.Outcome State Fault Refusal :=
  match s.writeLatch r with
  | none => .next ((s.setWriteLatch r (some (byteOf value))).reply .ok)
  | some h => logicalWrite (bytePair h (byteOf value)) (s.setWriteLatch r none)

end Sys2Proof.Machine
end

