-- ==== Sys2Proof/Machine/Assembler.lean ====
section
/-! DEFINITION. The spec's assembler notation (30_encoding.md R76 to R78) as lists of bus transactions. -/

namespace Sys2Proof.Machine

/-- A machine line: `wb` of a byte or `rb`, at an offset (R76). -/
inductive AsmLine where
  | wb (offset : Nat) (imm8 : Byte)
  | rb (offset : Nat)
  deriving DecidableEq, Repr

/-- The offsets a line may name (R37, R76). -/
def statusOffset : Nat := 0x0

def commandOffset : Nat := 0x8

def dataOffset : Nat := 0x10

/-- The bus transaction of a line: `value[7:0]` is the byte, the rest of `value` zero (R76). -/
def AsmLine.transaction : AsmLine → BusTransaction
  | .wb offset imm8 => ⟨.write (imm8.setWidth 32), offset⟩
  | .rb offset => ⟨.read, offset⟩

/-- A line of the listing: the bus key and the write value (R76, R78). -/
def AsmLine.listing (l : AsmLine) : Option BusWord × BusWord :=
  (busKey l.transaction, l.transaction.access.value)

/-- The pseudo-instructions (R77). -/
inductive Pseudo where
  | cmd (imm16 : Word)
  | data (imm16 : Word)
  | reg (ir imm16 : Word)
  | rd16Cmd
  deriving DecidableEq, Repr

/-- `cmd imm16`: a logical Command write, high byte first (R77). -/
def expandCmd (imm16 : Word) : List AsmLine :=
  [.wb commandOffset (highByte imm16), .wb commandOffset (lowByte imm16)]

/-- `data imm16`: a logical Data write, high byte first (R77). -/
def expandData (imm16 : Word) : List AsmLine :=
  [.wb dataOffset (highByte imm16), .wb dataOffset (lowByte imm16)]

/-- The expansions of R77. -/
def Pseudo.expand : Pseudo → List AsmLine
  | .cmd imm16 => expandCmd imm16
  | .data imm16 => expandData imm16
  | .reg ir imm16 => expandCmd ir ++ expandData imm16
  | .rd16Cmd => [.rb commandOffset, .rb commandOffset]

/-- A program's events: its bus transactions in order, with no access of the display reader between them. -/
def busEvents (ls : List AsmLine) : List Event :=
  ls.map fun l => .bus l.transaction

end Sys2Proof.Machine
end

