-- ==== Sys2Proof/Machine/CommandRegister.lean ====
section
/-! DEFINITION. The Command register (41_command_register.md). -/

namespace Sys2Proof.Machine

/-- `CmdReadValue()` (R95), under the parameter `CMD_READ_SOURCE`. -/
def cmdReadValue (s : State) : Word :=
  match s.params.cmdReadSource with
  | .ct => s.ct.setWidth 16
  | .contrastImage =>
    (s.vr.setWidth 16 <<< s.params.layout.vr) ||| (s.ct.setWidth 16 <<< s.params.layout.ct)

/-- `SET_IR` (R93). -/
def execSetIr (v : Word) (s : State) : Host.Outcome State Fault Refusal :=
  whenRunning s <| .next <|
    if v ≤ 0x12#16 then { s with ir := v }.reply .ok
    else s.raiseViolation (.irOutOfRange v)

end Sys2Proof.Machine
end

