-- ==== Sys2Proof/Machine/ConfigCommands.lean ====
section
/-! DEFINITION. The configuration commands, Data writes with `IR` from 0x01 to 0x10
(42_config_commands.md). Field positions are the machine's `FIELD_LAYOUT` (30_encoding.md R66; log 12). -/

namespace Sys2Proof.Machine

/-- `DATA_DRIVER_OUTPUT` (R98). -/
def execDataDriverOutput (v : Word) (s : State) : Host.Outcome State Fault Refusal :=
  whenRunning s <| .next <|
    { s with
      cms := field v s.params.layout.cms 1
      sgs := field v s.params.layout.sgs 1
      nl := field v s.params.layout.nl 5 }.reply .ok

/-- `DATA_CONTRAST` (R99). -/
def execDataContrast (v : Word) (s : State) : Host.Outcome State Fault Refusal :=
  whenRunning s <| .next <|
    { s with
      vr := field v s.params.layout.vr 3
      ct := field v s.params.layout.ct 7 }.reply .ok

/-- `DATA_ENTRY_MODE` (R100); a value with `AM = 0b11` is rejected whole (R101; D14, log 24). -/
def execDataEntryMode (v : Word) (s : State) : Host.Outcome State Fault Refusal :=
  whenRunning s <| .next <|
    if field v s.params.layout.am 2 = 0b11#2 then s.raiseViolation (.amInvalid v)
    else
      { s with
        id := field v s.params.layout.id 1
        am := field v s.params.layout.am 2
        lg := field v s.params.layout.lg 2 }.reply .ok

/-- `DATA_ROTATION` (R102). -/
def execDataRotation (v : Word) (s : State) : Host.Outcome State Fault Refusal :=
  whenRunning s <| .next <| { s with rt := field v s.params.layout.rt 3 }.reply .ok

/-- `DATA_DISPLAY_CONTROL` (R103). -/
def execDataDisplayControl (v : Word) (s : State) : Host.Outcome State Fault Refusal :=
  whenRunning s <| .next <|
    { s with
      spt := field v s.params.layout.spt 1
      gsh := field v s.params.layout.gsh 2
      gsl := field v s.params.layout.gsl 2
      rev := field v revPosition 1
      d := field v s.params.layout.d 1 }.reply .ok

/-- `DATA_NOP_09` (R104): legal, no effect. -/
def execDataNop09 (_v : Word) (s : State) : Host.Outcome State Fault Refusal :=
  whenRunning s <| .next <| s.reply .ok

/-- `DATA_NOP_0A` (R104): legal, no effect. -/
def execDataNop0A (_v : Word) (s : State) : Host.Outcome State Fault Refusal :=
  whenRunning s <| .next <| s.reply .ok

/-- `DATA_WRITE_MASK` (R105). -/
def execDataWriteMask (v : Word) (s : State) : Host.Outcome State Fault Refusal :=
  whenRunning s <| .next <| { s with wm := v }.reply .ok

end Sys2Proof.Machine
end

