-- ==== Sys2Proof/Machine/Unimplemented.lean ====
section
/-! DEFINITION. The commands whose Data write halts the block (44_unimplemented_commands.md). The value
written is never decoded (30_encoding.md R68); the cause carries the Index Register (log 21). -/

namespace Sys2Proof.Machine

/-- `raise FatalError(Unimplemented, IR)` (R125). -/
def unimplementedCommand (s : State) : Host.Outcome State Fault Refusal :=
  whenRunning s <| .next <| s.raiseFatal (.unimplemented s.ir)

/-- `raise FatalError(UndefinedDispatch, IR)` (R126). -/
def undefinedDispatch (s : State) : Host.Outcome State Fault Refusal :=
  whenRunning s <| .next <| s.raiseFatal (.undefinedDispatch s.ir)

/-- `DATA_R02` (R125). -/
def execDataR02 (_v : Word) (s : State) : Host.Outcome State Fault Refusal :=
  unimplementedCommand s

/-- `DATA_R03` (R125). -/
def execDataR03 (_v : Word) (s : State) : Host.Outcome State Fault Refusal :=
  unimplementedCommand s

/-- `DATA_R08` (R125). -/
def execDataR08 (_v : Word) (s : State) : Host.Outcome State Fault Refusal :=
  unimplementedCommand s

/-- `DATA_HCURSOR` (R125). -/
def execDataHcursor (_v : Word) (s : State) : Host.Outcome State Fault Refusal :=
  unimplementedCommand s

/-- `DATA_R0C` (R125). -/
def execDataR0C (_v : Word) (s : State) : Host.Outcome State Fault Refusal :=
  unimplementedCommand s

/-- `DATA_R0D` (R125). -/
def execDataR0D (_v : Word) (s : State) : Host.Outcome State Fault Refusal :=
  unimplementedCommand s

/-- `DATA_R0E` (R125). -/
def execDataR0E (_v : Word) (s : State) : Host.Outcome State Fault Refusal :=
  unimplementedCommand s

/-- `DATA_R00` (R126). -/
def execDataR00 (_v : Word) (s : State) : Host.Outcome State Fault Refusal :=
  undefinedDispatch s

/-- `DATA_R0F` (R126). -/
def execDataR0F (_v : Word) (s : State) : Host.Outcome State Fault Refusal :=
  undefinedDispatch s

end Sys2Proof.Machine
end

