-- ==== Sys2Proof/Machine/VideoRam.lean ====
section
/-! DEFINITION. RAM Address Set and Write Data to CGRAM (43_vram_and_address_counter.md). -/

namespace Sys2Proof.Machine

/-- The direction the Entry Mode in force gives the Address Counter (R113 (e)). -/
def State.direction (s : State) : Direction := stepDirection s.params.idIncrement s.id

/-- The word a video-RAM write of `v` stores at `AC`, from the configuration in force (R113 (a) to (c), R121). -/
def State.wordToStore (s : State) (v : Word) : Word :=
  storedWord s.rt s.lg s.wm (vramRead s.vram s.ac.val) v

/-- `DATA_RAM_ADDRESS` (R111). -/
def execDataRamAddress (v : Word) (s : State) : Host.Outcome State Fault Refusal :=
  whenRunning s <| .next <| { s with ac := toVramIndex v.toNat }.reply .ok

/-- `DATA_WRITE_CGRAM` (R113): the word is stored, then `AC` advances; an advance mode other than `0b00` is
fatal after the store (R116; D19, log 25). -/
def execDataWriteCgram (v : Word) (s : State) : Host.Outcome State Fault Refusal :=
  let stored := { s with vram := vramWrite s.vram s.ac.val (s.wordToStore v) }
  whenRunning s <| .next <|
    if s.am = 0b00#2 then { stored with ac := toVramIndex (acNext s.ac.val s.direction) }.reply .ok
    else stored.raiseFatal (.amUnimplemented s.am)

end Sys2Proof.Machine
end

