-- ==== Sys2Proof/Machine/BusLatch.lean ====
section
/-! DEFINITION. The bus transactions and the byte-latch adapter (40_bus_latch.md). -/

namespace Sys2Proof.Machine

/-- `DATA_DISPATCH(IR, V)` (R85): the row of 30_encoding.md R70 that `IR` selects; an `IR` above 0x12, which no
run reaches, is undefined dispatch (R79, R126; log 29). -/
def dataDispatch (v : Word) (s : State) : Host.Outcome State Fault Refusal :=
  match s.ir.toNat with
  | 0x00 => execDataR00 v s
  | 0x01 => execDataDriverOutput v s
  | 0x02 => execDataR02 v s
  | 0x03 => execDataR03 v s
  | 0x04 => execDataContrast v s
  | 0x05 => execDataEntryMode v s
  | 0x06 => execDataRotation v s
  | 0x07 => execDataDisplayControl v s
  | 0x08 => execDataR08 v s
  | 0x09 => execDataNop09 v s
  | 0x0A => execDataNop0A v s
  | 0x0B => execDataHcursor v s
  | 0x0C => execDataR0C v s
  | 0x0D => execDataR0D v s
  | 0x0E => execDataR0E v s
  | 0x0F => execDataR0F v s
  | 0x10 => execDataWriteMask v s
  | 0x11 => execDataRamAddress v s
  | 0x12 => execDataWriteCgram v s
  | _ => undefinedDispatch s

/-- `RD_STATUS` (R80): the fixed "not busy" value, not byte-latched (D7, log 24). -/
def execRdStatus (s : State) : Host.Outcome State Fault Refusal :=
  whenRunning s <| .next <| s.reply (.okValue s.params.statusValue)

/-- `WR_STATUS` (R81), under the parameter `STATUS_WRITE_POLICY`. -/
def execWrStatus (_value : BusWord) (s : State) : Host.Outcome State Fault Refusal :=
  whenRunning s <| .next <|
    match s.params.statusWritePolicy with
    | .stubNoEffect => s.reply (.stubWrite .statusWrite)
    | .fatal => s.raiseFatal .statusWrite

/-- `RD_CMD` (R82): a pending low byte is returned and drained; else the value is computed, its low byte
latched and its high byte returned. -/
def execRdCmd (s : State) : Host.Outcome State Fault Refusal :=
  whenRunning s <| .next <|
    match s.rlCmd with
    | some lo => { s with rlCmd := none }.reply (.okValue (readReply lo))
    | none =>
      { s with rlCmd := some (lowByte (cmdReadValue s)) }.reply (.okValue (readReply (highByte (cmdReadValue s))))

/-- `WR_CMD` (R83, R88): the completing byte runs `SET_IR`. -/
def execWrCmd (value : BusWord) (s : State) : Host.Outcome State Fault Refusal :=
  whenRunning s <| latchWrite .command value s execSetIr

/-- `RD_DATA` (R86): fatal (D9, log 24). -/
def execRdData (s : State) : Host.Outcome State Fault Refusal :=
  whenRunning s <| .next <| s.raiseFatal .dataRead

/-- `WR_DATA` (R85, R88): the completing byte runs the command the Index Register selects at that time. -/
def execWrData (value : BusWord) (s : State) : Host.Outcome State Fault Refusal :=
  whenRunning s <| latchWrite .data value s dataDispatch

/-- `UNMAPPED` (R87): the result, and no change of state. -/
def execUnmapped (_access : Access) (offset : Nat) (s : State) : Host.Outcome State Fault Refusal :=
  whenRunning s <| .next <| s.reply (.unmapped (.unmapped offset))

end Sys2Proof.Machine
end

