-- ==== Sys2Proof/Machine/Dispatch.lean ====
section
/-! DEFINITION. One arm per row of the opcode table. -/

namespace Sys2Proof.Machine

def exec (i : Instr) (s : State) : Host.Outcome State Fault Refusal :=
  match i with
  | .rdStatus => Sys2Proof.Machine.execRdStatus s
  | .wrStatus value => Sys2Proof.Machine.execWrStatus value s
  | .rdCmd => Sys2Proof.Machine.execRdCmd s
  | .wrCmd value => Sys2Proof.Machine.execWrCmd value s
  | .rdData => Sys2Proof.Machine.execRdData s
  | .wrData value => Sys2Proof.Machine.execWrData value s
  | .unmapped access offset => Sys2Proof.Machine.execUnmapped access offset s
  | .setIr v => Sys2Proof.Machine.execSetIr v s
  | .dataR00 v => Sys2Proof.Machine.execDataR00 v s
  | .dataDriverOutput v => Sys2Proof.Machine.execDataDriverOutput v s
  | .dataR02 v => Sys2Proof.Machine.execDataR02 v s
  | .dataR03 v => Sys2Proof.Machine.execDataR03 v s
  | .dataContrast v => Sys2Proof.Machine.execDataContrast v s
  | .dataEntryMode v => Sys2Proof.Machine.execDataEntryMode v s
  | .dataRotation v => Sys2Proof.Machine.execDataRotation v s
  | .dataDisplayControl v => Sys2Proof.Machine.execDataDisplayControl v s
  | .dataR08 v => Sys2Proof.Machine.execDataR08 v s
  | .dataNop09 v => Sys2Proof.Machine.execDataNop09 v s
  | .dataNop0A v => Sys2Proof.Machine.execDataNop0A v s
  | .dataHcursor v => Sys2Proof.Machine.execDataHcursor v s
  | .dataR0C v => Sys2Proof.Machine.execDataR0C v s
  | .dataR0D v => Sys2Proof.Machine.execDataR0D v s
  | .dataR0E v => Sys2Proof.Machine.execDataR0E v s
  | .dataR0F v => Sys2Proof.Machine.execDataR0F v s
  | .dataWriteMask v => Sys2Proof.Machine.execDataWriteMask v s
  | .dataRamAddress v => Sys2Proof.Machine.execDataRamAddress v s
  | .dataWriteCgram v => Sys2Proof.Machine.execDataWriteCgram v s

end Sys2Proof.Machine
end

