-- ==== Sys2Proof/Machine/Display.lean ====
section
/-! DEFINITION. The display port and the pixel decode its consumer applies (45_display_port.md). The port
writes no state of the block (R136) and answers while the block is halted (R131). -/

namespace Sys2Proof.Machine

/-- `SNAPSHOT()` (R131): the whole of video RAM, as it stands between two transactions. -/
def takeSnapshot (s : State) : State := { s with snapshot := some s.vram }

/-- `READ_INVERT()` (R132): the invert flag, as it stands between two transactions. -/
def takeInvert (s : State) : State := { s with invertRead := some s.rev }

/-- All `0x1080` words of a snapshot, in index order (R131). -/
def snapshotWords (m : Vram) : List Word := (List.range acRange).map (vramRead m)

/-- Pixel field `k` of a word, 2 bits (R47). -/
def pixelField (w : Word) (k : Fin 8) : BitVec 2 := w.extractLsb' (2 * k.val) 2

/-- The 8 pixels of a word in the order of the parameter `PIXEL_ORDER` (R47, R133). -/
def pixels (order : PixelOrder) (w : Word) : List (BitVec 2) := order.toList.map (pixelField w)

/-- `idx(p, REV)` (R134): the palette entry, 0 darkest to 3 lightest, under the parameter `INVERT_POLARITY`. -/
def paletteIndex (polarity : InvertPolarity) (rev : BitVec 1) (p : BitVec 2) : Nat :=
  match polarity with
  | .complementWhenClear => if rev = 0#1 then 3 - p.toNat else p.toNat
  | .complementWhenSet => if rev = 1#1 then 3 - p.toNat else p.toNat

/-- The palette entries of a word's pixels. -/
def wordEntries (p : Params) (rev : BitVec 1) (w : Word) : List Nat :=
  (pixels p.pixelOrder w).map (paletteIndex p.invertPolarity rev)

/-- The words of a row that the consumer decodes: its valid columns (R46, R133). -/
def visibleWords (m : Vram) (row : Nat) : List Word :=
  (List.range visibleCols).map fun col => vramRead m (row * rowPitch + col)

/-- The palette entries a frame decodes from one snapshot and one invert read (R133, R134), a list for each
word, row by row; the two may come from different points of the run (R55). The reversal within a row is not
in the source and is left out (log 26). -/
def frameEntries (p : Params) (rev : BitVec 1) (m : Vram) : List (List (List Nat)) :=
  (List.range rows).map fun row => (visibleWords m row).map (wordEntries p rev)

end Sys2Proof.Machine
end

