-- ==== Sys2Proof/Machine/Fetch.lean ====
section
/-! DEFINITION. Where the next access comes from: the head of `pending`. The block has no program counter and
fetches no instructions (10_state.md R16); the bus master's transactions arrive in issue order (20_memory.md
R52), the display reader's accesses between them (R53, R54; log 2). -/

namespace Sys2Proof.Machine

/-- The next access and the state with it taken off the list. -/
def nextEvent (s : State) : Option (Event × State) :=
  match s.pending with
  | [] => none
  | e :: rest => some (e, { s with pending := rest })

/-- The state in which the very next step runs a code. A bus code is the next transaction. A logical word has
no transaction of its own: the write latch of its register holds its first byte, the next transaction writes
its second, and for a Data word the Index Register selects the command (R61, R62; log 20). -/
def placeCode (c : Code) (s : State) : State :=
  match c with
  | .bus key value => { s with pending := .bus (keyTransaction key value) :: s.pending }
  | .logical l =>
    if wordReg l = 0b01#2 then
      let latched := s.setWriteLatch .command (some (highByte (wordValue l)))
      { latched with
        pending := .bus ⟨.write ((lowByte (wordValue l)).setWidth 32), 0x8⟩ :: s.pending }
    else if wordReg l = 0b10#2 then
      let latched := s.setWriteLatch .data (some (highByte (wordValue l)))
      { latched with
        ir := (wordIrx l).setWidth 16
        pending := .bus ⟨.write ((lowByte (wordValue l)).setWidth 32), 0x10⟩ :: s.pending }
    else s

end Sys2Proof.Machine
end

