-- ==== Sys2Proof/Machine/Probe.lean ====
section
/-! DEFINITION. The device interface beside its transactions: the place of the window, and the two lookups that are
no transactions (20_memory.md R36, R39, R40).
They read no state, so they answer the same while the block is halted. -/

namespace Sys2Proof.Machine

/-- The host address of an offset, under the parameter `LCD_BASE`, "host address of offset 0" (R7, R36). The bus
dispatch uses it; the block sees offsets only (R49; log 23). -/
def hostAddress (p : Params) (offset : Nat) : Nat := p.lcdBase + offset

/-- What `probe` answers (R36). -/
inductive ProbeResult where
  | unmapped
  | register (name : String)
  deriving DecidableEq, Repr

/-- `kind()` (R39; the string is D31, log 24). -/
def kind : String := "LCD"

/-- `probe(offset)` (R40; the names are D31, log 24). -/
def probe (offset : Nat) : ProbeResult :=
  if offset = 0x0 then .register "Control/status"
  else if offset = 0x8 then .register "Command"
  else if offset = 0x10 then .register "Data"
  else .unmapped

end Sys2Proof.Machine
end

