-- ==== Sys2Proof/Machine/Step.lean ====
section
/-! DEFINITION. One step: one access of one agent, atomic (20_memory.md R52, 40_bus_latch.md R89). -/

namespace Sys2Proof.Machine

/-- The step. With no access pending the block waits (R158; log 3). -/
def step (s : State) : Host.Outcome State Fault Refusal :=
  match nextEvent s with
  | none => .next s
  | some (.bus t, s') => exec (decodeBus t) s'
  | some (.snapshot, s') => .next (takeSnapshot s')
  | some (.readInvert, s') => .next (takeInvert s')

/-- The state in which the next step runs the instruction of a table word (log 19, log 20). -/
def State.withFetchWord (s : State) (nbits w : Nat) : State :=
  placeCode (tableCode nbits w) s

end Sys2Proof.Machine
end

