-- ==== Sys2Proof/Safety.lean ====
section
/-! DEFINITION. What the claims are stated in: the invariant of the block, its part of the state, and runs. -/

namespace Sys2Proof.Machine

/-- Under each value of `LATCH_SHARING` the latch that does not exist stays empty (R17). -/
abbrev State.UnusedLatchEmpty (s : State) : Prop :=
  match s.params.latchSharing with
  | .perRegister => s.wl = none
  | .shared => s.wlCmd = none ∧ s.wlData = none

/-- Whether a result is a `FatalError` (R139). -/
def Result.isFatal : Result → Bool
  | .fatalError _ => true
  | .ok => false
  | .okValue _ => false
  | .unmapped _ => false
  | .stubRead _ => false
  | .stubWrite _ => false
  | .contractViolation _ => false

/-- The block is halted exactly when its last transaction returned `FatalError` (R28, R142). -/
abbrev State.HaltRecorded (s : State) : Prop :=
  s.halted = s.result.any Result.isFatal

/-- The invariant of the block (R34): `IR <= 0x12` (R19), `AM != 0b11` (R22), video RAM in its canonical form
with every word inside the store (R27), no byte in a latch that does not exist, and the halt recorded. That
`AC` lies in `[0, 0x1080)` and that a latch holds at most one byte is in their types. -/
abbrev State.Inv (s : State) : Prop :=
  s.ir ≤ 0x12#16 ∧ s.am ≠ 0b11#2 ∧ s.vram.wf = true ∧ s.UnusedLatchEmpty ∧ s.HaltRecorded

/-- A run is safe at a state if no transaction has returned `FatalError` (R142: "A halted state is never a
successful end of a run"). -/
abbrev State.Safe (s : State) : Prop := s.halted = false

/-- What the bus master's transactions depend on and change: all but the schedule and what the display
reader has read. -/
def State.busView (s : State) : State :=
  { s with pending := [], snapshot := none, invertRead := none }

/-- An outcome with its next state seen through a function. -/
def mapNext (f : State → State) : Host.Outcome State Fault Refusal → Host.Outcome State Fault Refusal
  | .next s => .next (f s)
  | .fault r => .fault r
  | .refused r => .refused r

/-- The bus master's view of an outcome. -/
def outcomeBusView : Host.Outcome State Fault Refusal → Host.Outcome State Fault Refusal :=
  mapNext State.busView

/-- The same block at another base address, with other severities (R7 `LCD_BASE`, `SEVERITY`). -/
def State.relabel (base : Nat) (severity : SeverityTable) (s : State) : State :=
  { s with params := { s.params with lcdBase := base, severity := severity } }

/-- Whether an event is a bus transaction. -/
def Event.isBus : Event → Bool
  | .bus _ => true
  | .snapshot => false
  | .readInvert => false

/-- The number of valid words of the store, `132 * 21` (R119). -/
abbrev validWords : Nat := rows * visibleCols

/-- The word index of the `k`-th valid word, row by row (R46, R119). -/
def validIndex (k : Nat) : Nat := k / visibleCols * rowPitch + k % visibleCols

/-- The place of a valid word index in that order. -/
def validRank (a : Nat) : Nat := a / rowPitch * visibleCols + a % rowPitch

/-- Words written one after the other by `DATA_WRITE_CGRAM`. -/
def writeWords : List Word → State → Host.Outcome State Fault Refusal
  | [], s => .next s
  | v :: vs, s =>
    match exec (.dataWriteCgram v) s with
    | .next t => writeWords vs t
    | .fault r => .fault r
    | .refused r => .refused r

/-- Whether an instruction is a logical write (format `logical`, R62). -/
def isLogical (i : Instr) : Bool := (opcodeRow i).format == .logical

end Sys2Proof.Machine
end

