-- ==== Sys2Proof/Certificates/Slice0/Obligations.lean ====
section
/-! DEFINITION. What is claimed of the model: statements only. Where a clause rests on a decision the spec
marks as its own (`D<n>`) or on a choice of the model (`log <n>`), the docstring says so. -/

open Sys2Proof Sys2Proof.Machine

/-! ## Bus transactions -/

/-- R80. The value is the open parameter `STATUS_VALUE`; that no latch takes part is D7. -/
def Obligations.StatusReadReturnsStatusValue : Prop :=
  ∀ s : State, s.halted = false →
    exec .rdStatus s = .next { s with result := some (.okValue s.params.statusValue) }

/-- R81, under both values of the open parameter `STATUS_WRITE_POLICY` (D8). -/
def Obligations.StatusWriteFollowsPolicy : Prop :=
  ∀ (s : State) (value : BusWord), s.halted = false →
    (s.params.statusWritePolicy = .stubNoEffect →
      exec (.wrStatus value) s = .next { s with result := some (.stubWrite .statusWrite) }) ∧
    (s.params.statusWritePolicy = .fatal →
      exec (.wrStatus value) s =
        .next { s with halted := true, result := some (.fatalError .statusWrite) })

/-- R82: the encoding, both reads of a pair, the zero high byte under `CMD_READ_SOURCE = CT`, and that a Command
write leaves the read latch alone (the numbers of the keys are D25). -/
def Obligations.CommandReadReturnsHighByteThenLatchedLow : Prop :=
  (∀ value, decode (.bus 0x00000008#32 value) = .ok .rdCmd) ∧
  ∀ s : State, s.halted = false →
    (∀ lo, s.rlCmd = some lo →
      exec .rdCmd s = .next { s with rlCmd := none, result := some (.okValue (lo.setWidth 32)) }) ∧
    (s.rlCmd = none →
      exec .rdCmd s = .next { s with
        rlCmd := some ((cmdReadValue s).extractLsb' 0 8)
        result := some (.okValue (((cmdReadValue s).extractLsb' 8 8).setWidth 32)) }) ∧
    (s.params.cmdReadSource = .ct → (cmdReadValue s).extractLsb' 8 8 = 0#8) ∧
    (∀ value t, exec (.wrCmd value) s = .next t → t.rlCmd = s.rlCmd)

/-- R95 over a pair of Command reads (`rd16 CMD`, R77), under both values of the open parameter
`CMD_READ_SOURCE` (D10): `ContrastImage` is `VR` and `CT` at their places in any `FIELD_LAYOUT`, and so the two fields themselves at the
default places (R66, G1). -/
def Obligations.CommandReadPairReturnsTheContrastField : Prop :=
  ∀ (s : State) (rest : List Event), s.halted = false → s.rlCmd = none →
    s.pending = busEvents (Pseudo.expand .rd16Cmd) ++ rest →
    ∃ m t, step s = .next m ∧ step m = .next t ∧ t.rlCmd = none ∧ t.pending = rest ∧
      (s.params.cmdReadSource = .ct →
        m.result = some (.okValue 0#32) ∧ t.result = some (.okValue (s.ct.setWidth 32))) ∧
      (s.params.cmdReadSource = .contrastImage →
        let image : Word :=
          (s.vr.setWidth 16 <<< s.params.layout.vr) ||| (s.ct.setWidth 16 <<< s.params.layout.ct)
        m.result = some (.okValue ((image.extractLsb' 8 8).setWidth 32)) ∧
        t.result = some (.okValue ((image.extractLsb' 0 8).setWidth 32))) ∧
      (s.params.cmdReadSource = .contrastImage → s.params.layout.vr = 8 → s.params.layout.ct = 0 →
        m.result = some (.okValue (s.vr.setWidth 32)) ∧ t.result = some (.okValue (s.ct.setWidth 32)))

/-- R83 (`LATCH_SHARING = PerRegister`): the encoding; the first byte; the second, which is the logical write of
`(h << 8) | b`; and that a high byte other than 0x00 makes the value illegal (the key's number is D25). -/
def Obligations.CommandWriteLatchesThenSetsIndex : Prop :=
  (∀ value, decode (.bus 0x80000008#32 value) = .ok (.wrCmd value)) ∧
  ∀ (s : State) (value : BusWord), s.halted = false → s.params.latchSharing = .perRegister →
    (s.wlCmd = none →
      exec (.wrCmd value) s = .next { s with wlCmd := some (value.extractLsb' 0 8), result := some .ok }) ∧
    (∀ h, s.wlCmd = some h →
      exec (.wrCmd value) s =
        exec (.setIr ((h.setWidth 16 <<< 8) ||| (value.extractLsb' 0 8).setWidth 16)) { s with wlCmd := none }) ∧
    (∀ h, s.wlCmd = some h → h ≠ 0#8 →
      ∃ t v, exec (.wrCmd value) s = .next t ∧ t.result = some (.contractViolation (.irOutOfRange v)))

/-- R85 (`LATCH_SHARING = PerRegister`): the encoding; the first byte; the second, which runs the row that the
logical word `0x80000000 | (IR << 24) | V` decodes to, with the Index Register of that moment (the numbers of the
key and the word are D25). -/
def Obligations.DataWriteLatchesThenRunsSelectedCommand : Prop :=
  (∀ value, decode (.bus 0x80000010#32 value) = .ok (.wrData value)) ∧
  ∀ (s : State) (value : BusWord), s.halted = false → s.params.latchSharing = .perRegister →
    (s.wlData = none →
      exec (.wrData value) s = .next { s with wlData := some (value.extractLsb' 0 8), result := some .ok }) ∧
    (∀ h, s.wlData = some h → s.ir ≤ 0x12#16 →
      ∃ i, decode (.logical (0x80000000#32 ||| (s.ir.setWidth 32 <<< 24) |||
            ((h.setWidth 16 <<< 8) ||| (value.extractLsb' 0 8).setWidth 16 : Word).setWidth 32)) = .ok i ∧
        exec (.wrData value) s = exec i { s with wlData := none })

/-- R88 (`LATCH_SHARING = Shared`): one latch for both registers; the register of the second byte decides
(D28). -/
def Obligations.SharedLatchPairsAcrossRegisters : Prop :=
  ∀ (s : State) (value : BusWord), s.halted = false → s.params.latchSharing = .shared →
    (s.wl = none →
      exec (.wrCmd value) s = .next { s with wl := some (value.extractLsb' 0 8), result := some .ok } ∧
      exec (.wrData value) s = .next { s with wl := some (value.extractLsb' 0 8), result := some .ok }) ∧
    (∀ h, s.wl = some h →
      exec (.wrCmd value) s =
        exec (.setIr ((h.setWidth 16 <<< 8) ||| (value.extractLsb' 0 8).setWidth 16)) { s with wl := none }) ∧
    (∀ h, s.wl = some h → s.ir ≤ 0x12#16 →
      exec (.wrData value) s =
        exec (decodeData s.ir.toNat ((h.setWidth 16 <<< 8) ||| (value.extractLsb' 0 8).setWidth 16))
          { s with wl := none })

/-- R86: a read of Data is fatal (D9, the spec's own decision). -/
def Obligations.DataReadHaltsTheBlock : Prop :=
  ∀ s : State, s.halted = false →
    exec .rdData s = .next { s with halted := true, result := some (.fatalError .dataRead) }

/-- R87: every offset that is none of the three registers, `2^31` and above among them (decoding by exact match is
D5). -/
def Obligations.UnmappedAccessChangesNothing : Prop :=
  ∀ (s : State) (access : Access) (offset : Nat), s.halted = false →
    offset ≠ 0x0 → offset ≠ 0x8 → offset ≠ 0x10 →
    decodeBus ⟨access, offset⟩ = .unmapped access offset ∧
    exec (.unmapped access offset) s = .next { s with result := some (.unmapped (.unmapped offset)) }

/-- R42: bits 31 to 8 of a write do nothing (D4, the spec's own decision). -/
def Obligations.UpperWriteBitsAreIgnored : Prop :=
  ∀ (s : State) (value value' : BusWord), value.extractLsb' 0 8 = value'.extractLsb' 0 8 →
    exec (.wrStatus value) s = exec (.wrStatus value') s ∧
    exec (.wrCmd value) s = exec (.wrCmd value') s ∧
    exec (.wrData value) s = exec (.wrData value') s

/-! ## The Command register and the configuration commands -/

/-- R93: the encoding (its number is D25), the legal indexes, and the rejected ones, which change nothing. -/
def Obligations.SetIrAcceptsLegalIndexesOnly : Prop :=
  (∀ v : Word, decode (.logical (0x40000000#32 ||| v.setWidth 32)) = .ok (.setIr v)) ∧
  ∀ (s : State) (v : Word), s.halted = false →
    (v ≤ 0x12#16 → exec (.setIr v) s = .next { s with ir := v, result := some .ok }) ∧
    (0x12#16 < v →
      exec (.setIr v) s = .next { s with result := some (.contractViolation (.irOutOfRange v)) })

/-- R98, at the positions of any `FIELD_LAYOUT`, and with the default one's (R66, G1: general knowledge). -/
def Obligations.DriverOutputStoresItsFields : Prop :=
  ∀ (s : State) (v : Word), s.halted = false →
    exec (.dataDriverOutput v) s = .next { s with
      cms := v.extractLsb' s.params.layout.cms 1
      sgs := v.extractLsb' s.params.layout.sgs 1
      nl := v.extractLsb' s.params.layout.nl 5
      result := some .ok } ∧
    (s.params.layout = defaultLayout →
      exec (.dataDriverOutput v) s = .next { s with
        cms := v.extractLsb' 9 1
        sgs := v.extractLsb' 8 1
        nl := v.extractLsb' 0 5
        result := some .ok })

/-- R99, at the positions of any `FIELD_LAYOUT`, and with the default one's (R66, G1: general knowledge). -/
def Obligations.ContrastStoresItsFields : Prop :=
  ∀ (s : State) (v : Word), s.halted = false →
    exec (.dataContrast v) s = .next { s with
      vr := v.extractLsb' s.params.layout.vr 3
      ct := v.extractLsb' s.params.layout.ct 7
      result := some .ok } ∧
    (s.params.layout = defaultLayout →
      exec (.dataContrast v) s = .next { s with
        vr := v.extractLsb' 8 3
        ct := v.extractLsb' 0 7
        result := some .ok })

/-- R100 for a legal advance mode, at any `FIELD_LAYOUT` and at the default one (R66, G1: general knowledge).
`AM` values 0b01 and 0b10 are accepted. -/
def Obligations.EntryModeStoresItsFields : Prop :=
  ∀ (s : State) (v : Word), s.halted = false →
    (v.extractLsb' s.params.layout.am 2 ≠ 0b11#2 →
      exec (.dataEntryMode v) s = .next { s with
        id := v.extractLsb' s.params.layout.id 1
        am := v.extractLsb' s.params.layout.am 2
        lg := v.extractLsb' s.params.layout.lg 2
        result := some .ok }) ∧
    (s.params.layout = defaultLayout → v.extractLsb' 2 2 ≠ 0b11#2 →
      exec (.dataEntryMode v) s = .next { s with
        id := v.extractLsb' 4 1
        am := v.extractLsb' 2 2
        lg := v.extractLsb' 0 2
        result := some .ok })

/-- R100, R101: `AM = 0b11` is rejected whole (D14, the spec's own decision). -/
def Obligations.EntryModeRejectsInvalidAdvanceMode : Prop :=
  ∀ (s : State) (v : Word), s.halted = false → v.extractLsb' s.params.layout.am 2 = 0b11#2 →
    exec (.dataEntryMode v) s = .next { s with result := some (.contractViolation (.amInvalid v)) }

/-- R102, at any `FIELD_LAYOUT` and at the default one (R66, G1: general knowledge). -/
def Obligations.RotationStoresItsField : Prop :=
  ∀ (s : State) (v : Word), s.halted = false →
    exec (.dataRotation v) s = .next { s with
      rt := v.extractLsb' s.params.layout.rt 3
      result := some .ok } ∧
    (s.params.layout = defaultLayout →
      exec (.dataRotation v) s = .next { s with rt := v.extractLsb' 0 3, result := some .ok })

/-- R103: the invert flag from bit 1, the other fields at any `FIELD_LAYOUT` and at the default one (R66, G1:
general knowledge; the widths of SPT, GSH and GSL are D11). -/
def Obligations.DisplayControlStoresItsFields : Prop :=
  ∀ (s : State) (v : Word), s.halted = false →
    exec (.dataDisplayControl v) s = .next { s with
      spt := v.extractLsb' s.params.layout.spt 1
      gsh := v.extractLsb' s.params.layout.gsh 2
      gsl := v.extractLsb' s.params.layout.gsl 2
      rev := v.extractLsb' 1 1
      d := v.extractLsb' s.params.layout.d 1
      result := some .ok } ∧
    (s.params.layout = defaultLayout →
      exec (.dataDisplayControl v) s = .next { s with
        spt := v.extractLsb' 8 1
        gsh := v.extractLsb' 4 2
        gsl := v.extractLsb' 2 2
        rev := v.extractLsb' 1 1
        d := v.extractLsb' 0 1
        result := some .ok })

/-- R104: both no-ops, their encodings (the numbers are D25), and that they change nothing. -/
def Obligations.NoOpsChangeNothing : Prop :=
  (∀ v : Word, decode (.logical (0x89000000#32 ||| v.setWidth 32)) = .ok (.dataNop09 v) ∧
    decode (.logical (0x8A000000#32 ||| v.setWidth 32)) = .ok (.dataNop0A v)) ∧
  ∀ (s : State) (v : Word), s.halted = false →
    exec (.dataNop09 v) s = .next { s with result := some .ok } ∧
    exec (.dataNop0A v) s = .next { s with result := some .ok }

/-- R105, and R25 (D18, the spec's own decision): the mask is the whole word, and nothing but this command, run
as a logical write or completed by a Data byte with `IR = 0x10`, changes it. -/
def Obligations.WriteMaskStoresTheWordAndLasts : Prop :=
  (∀ (s : State) (v : Word), s.halted = false →
    exec (.dataWriteMask v) s = .next { s with wm := v, result := some .ok }) ∧
  ∀ (i : Instr) (s t : State), exec i s = .next t → t.wm ≠ s.wm →
    (∃ v, i = .dataWriteMask v) ∨ (∃ value, i = .wrData value ∧ s.ir = 0x10#16)

/-! ## Video RAM and the Address Counter -/

/-- R111: `AC` is the value `mod 0x1080`, with no column clamp; nothing else changes. -/
def Obligations.RamAddressSetsAddressCounterModulo : Prop :=
  (∀ v : Word, decode (.logical (0x91000000#32 ||| v.setWidth 32)) = .ok (.dataRamAddress v)) ∧
  ∀ (s : State) (v : Word), s.halted = false →
    ∃ a : VramIndex, a.val = v.toNat % 0x1080 ∧
      exec (.dataRamAddress v) s = .next { s with ac := a, result := some .ok }

/-- R113 with `AM = 0b00`, on a canonical video RAM: the word at `AC` is the rotated word combined by `LG` and
masked by `WM`, every other word is as before, `AC` takes one step in the direction of `ID`, and nothing else
changes. The step is `AcNext` (its details are D13); `ID_INCREMENT` is the open parameter D12; the order of the
combine operations is D35. -/
def Obligations.VideoRamWriteStoresAndAdvances : Prop :=
  ∀ (s : State) (v : Word), s.halted = false → s.vram.wf = true → s.am = 0b00#2 →
    ∃ (m : Vram) (a : VramIndex),
      exec (.dataWriteCgram v) s = .next { s with vram := m, ac := a, result := some .ok } ∧
      vramRead m s.ac.val =
        ((vramRead s.vram s.ac.val &&& s.wm) |||
          (combine s.lg (vramRead s.vram s.ac.val) (rotl16 v (2 * s.rt.toNat)) &&& ~~~s.wm)) ∧
      (∀ b, b ≠ s.ac.val → vramRead m b = vramRead s.vram b) ∧
      (s.id = s.params.idIncrement → a.val = acNext s.ac.val .increment) ∧
      (s.id ≠ s.params.idIncrement → a.val = acNext s.ac.val .decrement)

/-- R113, R114, R115 bit by bit, for every advance mode: bit `n` of the stored word is the old bit where `WM` has
a 1, else `LG`'s operation (its order is D35) on the old bit and the bit of the incoming word that the rotation by
`2 * RT` brings there. In the fatal advance modes the stored word is D19 (93_implementation_defined.md I9). -/
def Obligations.VideoRamWriteBitByBit : Prop :=
  ∀ (s t : State) (v : Word) (n : Nat), s.vram.wf = true → exec (.dataWriteCgram v) s = .next t → n < 16 →
    (vramRead t.vram s.ac.val).getLsbD n =
      if s.wm.getLsbD n then (vramRead s.vram s.ac.val).getLsbD n
      else
        let old := (vramRead s.vram s.ac.val).getLsbD n
        let new := v.getLsbD ((n + 16 - 2 * s.rt.toNat) % 16)
        match s.lg.toNat with
        | 0 => new
        | 1 => old || new
        | 2 => old && new
        | _ => old != new

/-- R115, the mask law: with `WM = 0xFFFF` a video-RAM write that completes leaves the whole of video RAM as it
was, whatever `LG`, `RT` and the word; and `AC` still advances (R113). -/
def Obligations.FullMaskLeavesVideoRamUnchanged : Prop :=
  ∀ (s : State) (v : Word), s.halted = false → s.vram.wf = true → s.am = 0b00#2 → s.wm = 0xFFFF#16 →
    ∃ a : VramIndex, exec (.dataWriteCgram v) s = .next { s with ac := a, result := some .ok } ∧
      a.val = acNext s.ac.val (stepDirection s.params.idIncrement s.id)

/-- R116: an advance mode other than 0b00 is fatal, `AC` stays, and no other word changes; the word at `AC` is
stored first (D19, the spec's own decision; 93_implementation_defined.md I9). -/
def Obligations.UnimplementedAdvanceModeHaltsAfterTheStore : Prop :=
  ∀ (s : State) (v : Word), s.halted = false → s.vram.wf = true → s.am ≠ 0b00#2 →
    ∃ m : Vram,
      exec (.dataWriteCgram v) s =
        .next { s with vram := m, halted := true, result := some (.fatalError (.amUnimplemented s.am)) } ∧
      vramRead m s.ac.val = storedWord s.rt s.lg s.wm (vramRead s.vram s.ac.val) v ∧
      ∀ b, b ≠ s.ac.val → vramRead m b = vramRead s.vram b

/-- R117, R26: from any word index and in both directions a step lands inside the store and on a valid
column. -/
def Obligations.AddressCounterStepLandsOnValidColumns : Prop :=
  ∀ (a : Nat) (d : Direction), acNext a d < 0x1080 ∧ acNext a d % 0x20 ≤ 0x14

/-- R117, R118 in every row: linear inside the valid columns, to the start of the next row past column 0x14, to
column 0x14 of the row before past column 0; the rows close into a ring (D13, the spec's own decision). -/
def Obligations.AddressCounterStepInEveryRow : Prop :=
  ∀ r, r < 132 →
    (∀ c, c < 0x14 → acNext (r * 0x20 + c) .increment = r * 0x20 + c + 1) ∧
    acNext (r * 0x20 + 0x14) .increment = (r + 1) % 132 * 0x20 ∧
    (∀ c, 0 < c → c ≤ 0x14 → acNext (r * 0x20 + c) .decrement = r * 0x20 + c - 1) ∧
    acNext (r * 0x20) .decrement = (r + 131) % 132 * 0x20 + 0x14

/-- R120: a step from an invalid column leaves the invalid columns at once (it follows from D13;
93_implementation_defined.md I6). -/
def Obligations.AddressCounterStepFromInvalidColumn : Prop :=
  ∀ r c, r < 132 → 0x15 ≤ c → c ≤ 0x1F →
    acNext (r * 0x20 + c) .increment = (r + 1) % 132 * 0x20 ∧
    acNext (r * 0x20 + c) .decrement = r * 0x20 + 0x14

/-- R119: on valid words a decrement undoes an increment and an increment undoes a decrement. -/
def Obligations.AddressCounterStepsUndoEachOther : Prop :=
  ∀ a, a < 0x1080 → a % 0x20 ≤ 0x14 →
    acNext (acNext a .increment) .decrement = a ∧ acNext (acNext a .decrement) .increment = a

/-- R119: from a valid word, `n` increments lead to the valid word `n` places on, row by row, and the trajectory
returns after exactly `132 * 21 = 2772` steps. -/
def Obligations.AddressCounterVisitsEveryValidWord : Prop :=
  ∀ a n, a < 0x1080 → a % 0x20 ≤ 0x14 →
    (fun x => acNext x .increment)^[n] a = validIndex ((validRank a + n) % 2772) ∧
    ((fun x => acNext x .increment)^[n] a = a ↔ n % 2772 = 0)

/-- R113, R117, R167 over a stream: with increment, replace and no mask, words written one after the other from a
valid column fill the valid words in order, rotated, jumping from column 0x14 to the next row and from the last
valid word to the first; nothing else changes. -/
def Obligations.StreamedWordsFillTheValidWords : Prop :=
  ∀ (ws : List Word) (s : State), ws ≠ [] → ws.length ≤ 2772 → s.halted = false → s.vram.wf = true →
    s.am = 0b00#2 → s.id = s.params.idIncrement → s.lg = 0b00#2 → s.wm = 0x0000#16 → s.ac.val % 0x20 ≤ 0x14 →
    ∃ (m : Vram) (a : VramIndex),
      writeWords ws s = .next { s with vram := m, ac := a, result := some .ok } ∧
      a.val = validIndex ((validRank s.ac.val + ws.length) % 2772) ∧
      (∀ k (hk : k < ws.length),
        vramRead m (validIndex ((validRank s.ac.val + k) % 2772)) = rotl16 (ws[k]'hk) (2 * s.rt.toNat)) ∧
      (∀ b, (∀ k, k < ws.length → b ≠ validIndex ((validRank s.ac.val + k) % 2772)) →
        vramRead m b = vramRead s.vram b)

/-- R47: a rotation by `RT * 2` bits moves every pixel field by `RT` places, cyclically, and splits none. -/
def Obligations.RotationMovesWholePixels : Prop :=
  ∀ (rt : BitVec 3) (v : Word) (k j : Fin 8), j.val = (k.val + rt.toNat) % 8 →
    pixelField (rotateIn rt v) j = pixelField v k

/-! ## Unimplemented and undefined commands -/

/-- R125: the seven commands, their encodings (the numbers are D25), and that each halts the block and records the
Index Register, whatever the value. The recorded number is the command's own where `IR` selects the command, by its
row or by a Data byte that completes a pair; on a row run with another `IR` it is that `IR` (log 21). -/
def Obligations.UnimplementedCommandsHaltTheBlock : Prop :=
  (∀ v : Word,
    decode (.logical (0x82000000#32 ||| v.setWidth 32)) = .ok (.dataR02 v) ∧
    decode (.logical (0x83000000#32 ||| v.setWidth 32)) = .ok (.dataR03 v) ∧
    decode (.logical (0x88000000#32 ||| v.setWidth 32)) = .ok (.dataR08 v) ∧
    decode (.logical (0x8B000000#32 ||| v.setWidth 32)) = .ok (.dataHcursor v) ∧
    decode (.logical (0x8C000000#32 ||| v.setWidth 32)) = .ok (.dataR0C v) ∧
    decode (.logical (0x8D000000#32 ||| v.setWidth 32)) = .ok (.dataR0D v) ∧
    decode (.logical (0x8E000000#32 ||| v.setWidth 32)) = .ok (.dataR0E v)) ∧
  (∀ (s : State) (v : Word) (i : Instr), s.halted = false →
    i ∈ [.dataR02 v, .dataR03 v, .dataR08 v, .dataHcursor v, .dataR0C v, .dataR0D v, .dataR0E v] →
    exec i s = .next { s with halted := true, result := some (.fatalError (.unimplemented s.ir)) }) ∧
  ∀ (s : State) (n : Word), s.halted = false → s.ir = n →
    n ∈ [0x02#16, 0x03#16, 0x08#16, 0x0B#16, 0x0C#16, 0x0D#16, 0x0E#16] →
    (∀ v, exec (decodeData n.toNat v) s =
      .next { s with halted := true, result := some (.fatalError (.unimplemented n)) }) ∧
    (s.writeLatch .data ≠ none → ∀ value, exec (.wrData value) s =
      .next { s.setWriteLatch .data none with halted := true, result := some (.fatalError (.unimplemented n)) })

/-- R126: the two index values with no command, their encodings (the numbers are D25), and the halt; a Data byte
that completes a pair with `IR` above 0x12, which no run reaches, is routed here too. -/
def Obligations.UndefinedDispatchHaltsTheBlock : Prop :=
  (∀ v : Word,
    decode (.logical (0x80000000#32 ||| v.setWidth 32)) = .ok (.dataR00 v) ∧
    decode (.logical (0x8F000000#32 ||| v.setWidth 32)) = .ok (.dataR0F v)) ∧
  (∀ (s : State) (v : Word), s.halted = false →
    exec (.dataR00 v) s = .next { s with halted := true, result := some (.fatalError (.undefinedDispatch s.ir)) } ∧
    exec (.dataR0F v) s = .next { s with halted := true, result := some (.fatalError (.undefinedDispatch s.ir)) }) ∧
  ∀ (s : State) (value : BusWord), s.halted = false → s.writeLatch .data ≠ none → 0x12#16 < s.ir →
    exec (.wrData value) s =
      .next { s.setWriteLatch .data none with
        halted := true, result := some (.fatalError (.undefinedDispatch s.ir)) }

/-! ## Results, halting, and what no transaction changes -/

/-- R142 (D19, the spec's own decision): a halted block takes no transaction, by `exec` or by a step, while the
display port still answers (R131). That the missing step is the fault `halted` is the model's form (log 5). -/
def Obligations.HaltedBlockTakesNoTransaction : Prop :=
  (∀ (i : Instr) (s : State), s.halted = true → exec i s = .fault .halted) ∧
  (∀ (s : State) (t : BusTransaction) (rest : List Event), s.halted = true → s.pending = .bus t :: rest →
    step s = .fault .halted) ∧
  ∀ (s : State) (rest : List Event), s.halted = true → s.pending = .snapshot :: rest →
    step s = .next { s with pending := rest, snapshot := some s.vram }

/-- R170, R139: a running block takes every transaction, which returns one result, and halts exactly on
`FatalError` (R142, D19). -/
def Obligations.RunningBlockTakesEveryTransaction : Prop :=
  ∀ (i : Instr) (s : State), s.halted = false →
    ∃ t r, exec i s = .next t ∧ t.result = some r ∧ (t.halted = true ↔ ∃ c, r = .fatalError c)

/-- R144: a `ContractViolation` changes no register, no field, not `AC` and not video RAM; only the write latch of
the register written, which held the byte of the pair and is drained. A logical write, which has no latch to drain,
changes nothing. The recorded result is the model's own field (log 4). -/
def Obligations.ContractViolationChangesOnlyTheDrainedLatch : Prop :=
  ∀ (i : Instr) (s t : State) (c : Cause), exec i s = .next t → t.result = some (.contractViolation c) →
    (∀ value, i = .wrCmd value →
      s.writeLatch .command ≠ none ∧ t = { s.setWriteLatch .command none with result := t.result }) ∧
    (∀ value, i = .wrData value →
      s.writeLatch .data ≠ none ∧ t = { s.setWriteLatch .data none with result := t.result }) ∧
    ((∀ value, i ≠ .wrCmd value ∧ i ≠ .wrData value) → t = { s with result := t.result })

/-- R29: a transaction that returns anything but `Ok` changes no configuration field, not `IR`, not `AC` and no
word of video RAM, but for the fatal video-RAM write. -/
def Obligations.OnlyOkChangesRegisters : Prop :=
  ∀ (i : Instr) (s t : State) (r : Result), exec i s = .next t → t.result = some r → r.isOk = false →
    t = { s with
      wlCmd := t.wlCmd, wlData := t.wlData, wl := t.wl
      vram := t.vram, halted := t.halted, result := t.result } ∧
    (t.vram = s.vram ∨ ∃ am, r = .fatalError (.amUnimplemented am))

/-- R122: only RAM Address Set and a video-RAM write move `AC`, run as logical writes or completed by a Data byte
with `IR` 0x11 or 0x12, and only with the result `Ok`. -/
def Obligations.AddressCounterMovesOnlyByItsCommands : Prop :=
  ∀ (i : Instr) (s t : State), exec i s = .next t → t.ac ≠ s.ac →
    t.result = some .ok ∧
    ((∃ v, i = .dataRamAddress v) ∨ (∃ v, i = .dataWriteCgram v) ∨
      (∃ value, i = .wrData value ∧ (s.ir = 0x11#16 ∨ s.ir = 0x12#16)))

/-- R44, R27: no transaction changes a word of video RAM other than the one at `AC`, and only a video-RAM write,
run as a logical write or completed by a Data byte with `IR = 0x12`, changes that one. -/
def Obligations.VideoRamChangesOnlyAtTheAddressCounter : Prop :=
  ∀ (i : Instr) (s t : State), exec i s = .next t →
    (∀ b, b ≠ s.ac.val → vramRead t.vram b = vramRead s.vram b) ∧
    (t.vram ≠ s.vram →
      (∃ v, i = .dataWriteCgram v) ∨ (∃ value, i = .wrData value ∧ s.ir = 0x12#16))

/-- R94: no Data write changes `IR`; it changes only by a `SET_IR` that succeeds. -/
def Obligations.IndexRegisterChangesOnlyBySetIr : Prop :=
  ∀ (i : Instr) (s t : State), exec i s = .next t → t.ir ≠ s.ir →
    t.result = some .ok ∧ t.ir ≤ 0x12#16 ∧ ((∃ v, i = .setIr v) ∨ (∃ value, i = .wrCmd value))

/-- R18 (D36, the spec's own decision): no write touches the read latch, no read touches a write latch. -/
def Obligations.ReadLatchAndWriteLatchesAreIndependent : Prop :=
  ∀ (i : Instr) (s t : State), exec i s = .next t →
    (i ≠ .rdCmd → t.rlCmd = s.rlCmd) ∧
    ((∀ value, i ≠ .wrCmd value ∧ i ≠ .wrData value) →
      t.wlCmd = s.wlCmd ∧ t.wlData = s.wlData ∧ t.wl = s.wl)

/-- R84 (D15, the spec's own decision): the byte that completes a pair leaves its latch empty, whatever the
result; under `PerRegister` the other register's latch is untouched (R17). -/
def Obligations.CompletingByteEmptiesItsLatch : Prop :=
  ∀ (s : State) (value : BusWord), s.halted = false →
    (s.writeLatch .command ≠ none → ∃ t, exec (.wrCmd value) s = .next t ∧ t.writeLatch .command = none ∧
      (s.params.latchSharing = .perRegister → t.writeLatch .data = s.writeLatch .data)) ∧
    (s.writeLatch .data ≠ none → ∃ t, exec (.wrData value) s = .next t ∧ t.writeLatch .data = none ∧
      (s.params.latchSharing = .perRegister → t.writeLatch .command = s.writeLatch .command))

/-- R91 (with R77's expansions), for both registers and both values of `LATCH_SHARING`: two bytes, high then low,
one after the other from an empty latch, are the logical write of the 16-bit value. -/
def Obligations.BytePairEqualsLogicalWrite : Prop :=
  (∀ (s : State) (v : Word) (rest : List Event), s.halted = false → s.writeLatch .command = none →
    s.pending = busEvents (expandCmd v) ++ rest →
    ∃ m, step s = .next m ∧ step m = exec (.setIr v) { s with pending := rest }) ∧
  (∀ (s : State) (v : Word) (rest : List Event), s.halted = false → s.writeLatch .data = none →
    s.ir ≤ 0x12#16 → s.pending = busEvents (expandData v) ++ rest →
    ∃ m i, step s = .next m ∧ decode (.logical (dataWord s.ir v)) = .ok i ∧
      step m = exec i { s with pending := rest })

/-- R140, R141: which transactions return `Unmapped`, `StubRead` and `StubWrite`, and the causes of the others. -/
def Obligations.ResultsAndCausesOfEachKind : Prop :=
  ∀ (i : Instr) (s t : State) (r : Result), exec i s = .next t → t.result = some r →
    (r.code = 1 ↔ ∃ access offset, i = .unmapped access offset) ∧
    r.code ≠ 2 ∧
    (r.code = 3 ↔ (∃ value, i = .wrStatus value) ∧ s.params.statusWritePolicy = .stubNoEffect) ∧
    (∀ c, r = .contractViolation c →
      (∃ v, c = .irOutOfRange v ∧ 0x12#16 < v) ∨ (∃ v, c = .amInvalid v ∧ v.extractLsb' s.params.layout.am 2 = 0b11#2)) ∧
    (∀ c, r = .fatalError c →
      c = .unimplemented s.ir ∨ c = .undefinedDispatch s.ir ∨ (c = .amUnimplemented s.am ∧ s.am ≠ 0b00#2) ∨
      (c = .dataRead ∧ i = .rdData) ∨
      (c = .statusWrite ∧ (∃ value, i = .wrStatus value) ∧ s.params.statusWritePolicy = .fatal))

/-! ## The display port and the lookups -/

/-- R131, R132, R136: an access of the display reader returns video RAM or the invert flag as they stand, and
changes nothing of the block; that what it returned is kept in the state is the model's form (log 22). -/
def Obligations.DisplayPortReadsBetweenTransactions : Prop :=
  ∀ (s : State) (rest : List Event),
    (s.pending = .snapshot :: rest → step s = .next { s with pending := rest, snapshot := some s.vram }) ∧
    (s.pending = .readInvert :: rest → step s = .next { s with pending := rest, invertRead := some s.rev })

/-- R136, R170: whatever the display reader does between the transactions, the bus master's run ends in the same
state of the block, with the same result, as the run with the display reader's accesses left out. That a schedule is
a list of accesses is log 2; the bus master's view leaves out what the display reader's reads recorded (log 22). -/
def Obligations.DisplayReaderDoesNotDisturbTheBusMaster : Prop :=
  ∀ (s : State) (evs : List Event),
    outcomeBusView (Sys2Proof.core.run evs.length { s with pending := evs }) =
      outcomeBusView
        (Sys2Proof.core.run (evs.filter Event.isBus).length { s with pending := evs.filter Event.isBus })

/-- R134, R135, under both values of the open parameter `INVERT_POLARITY` (C4, D26). -/
def Obligations.PaletteIndexFollowsThePolarity : Prop :=
  ∀ (rev : BitVec 1) (p : BitVec 2),
    paletteIndex .complementWhenClear 0#1 p = 3 - p.toNat ∧
    paletteIndex .complementWhenClear 1#1 p = p.toNat ∧
    paletteIndex .complementWhenSet rev p = paletteIndex .complementWhenClear (~~~rev) p

/-- R40: `probe` classifies an offset as the real access does (the names are D31). -/
def Obligations.ProbeAgreesWithTheAccess : Prop :=
  ∀ (access : Access) (offset : Nat),
    probe 0x0 = .register "Control/status" ∧ probe 0x8 = .register "Command" ∧ probe 0x10 = .register "Data" ∧
    (probe offset = .unmapped ↔ decodeBus ⟨access, offset⟩ = .unmapped access offset)

/-! ## Decoding, steps, invariant, reset -/

/-- R59, R71, R52: with a transaction at the head of the schedule, a step is that transaction's instruction on
the state with the transaction taken off. -/
def Obligations.StepRunsTheDecodedTransaction : Prop :=
  ∀ (s : State) (t : BusTransaction) (rest : List Event), s.pending = .bus t :: rest →
    step s = exec (decodeBus t) { s with pending := rest }

/-- The next step after a code is placed runs the instruction it encodes: a bus code on the state as it was; a
logical word by its completing byte, on the state with that latch empty and, for Data, the command selected
(R61, R62; log 20). -/
def Obligations.StepRunsThePlacedCode : Prop :=
  ∀ (s : State) (i : Instr) (c : Code), s.halted = false → i.wellFormed = true → encode i = some c →
    step (placeCode c s) =
      match c with
      | .bus _ _ => exec i s
      | .logical l =>
        if wordReg l = 0b01#2 then exec i (s.setWriteLatch .command none)
        else exec i { s.setWriteLatch .data none with ir := (wordIrx l).setWidth 16 }

/-- R59, R62 to R64: decoding the code of any well-formed instruction gives it back, every operand with it; only
an unmapped access at an offset of `2^31` or more has no code. -/
def Obligations.DecodeInvertsEncode : Prop :=
  ∀ i : Instr, i.wellFormed = true →
    (∀ c, encode i = some c → decode c = .ok i ∧ c.canonical = true) ∧
    (encode i = none ↔ ∃ access offset, i = .unmapped access offset ∧ 2 ^ 31 ≤ offset)

/-- R59, R62: the other direction, on the codes that R59 and R62 write. -/
def Obligations.EncodeInvertsDecode : Prop :=
  ∀ (c : Code) (i : Instr), c.canonical = true → decode c = .ok i → encode i = some c

/-- R79: decoding is total. Every bus transaction and every logical word of R62's form decodes, to a well-formed
instruction whose row of the opcode table the code lies in. -/
def Obligations.DecodingIsTotalAndKeepsToTheTable : Prop :=
  (∀ t : BusTransaction, (decodeBus t).wellFormed = true ∧
    ∀ key, busKey t = some key → decode (.bus key t.access.value) = .ok (decodeBus t)) ∧
  ∀ c : Code, (c.canonical = true → ∃ i, decode c = .ok i) ∧
    ∀ i, decode c = .ok i → c.canonical = true → i.wellFormed = true ∧ (opcodeRow i).holds c = true

/-- Words written out from R59, R62 to R64 decode to the instructions they stand for. -/
def Obligations.WordsOfTheSpecDecode : Prop :=
  decode (.bus 0x80000008#32 0x00000005#32) = .ok (.wrCmd 0x00000005#32) ∧
  decode (.bus 0x0000000C#32 0#32) = .ok (.unmapped .read 0x0C) ∧
  decode (.logical 0x40000012#32) = .ok (.setIr 0x0012#16) ∧
  decode (.logical 0x8500000C#32) = .ok (.dataEntryMode 0x000C#16) ∧
  decode (.logical 0x8B000000#32) = .ok (.dataHcursor 0x0000#16) ∧
  decode (.logical 0x9200BEEF#32) = .ok (.dataWriteCgram 0xBEEF#16)

/-- R34, with the canonical form of video RAM, the latch that does not exist, and the recorded halt: every step
from every state keeps the invariant. -/
def Obligations.EveryStepKeepsTheInvariant : Prop :=
  ∀ s t : State, s.Inv → step s = .next t → t.Inv

/-- The machine after reset has the invariant (its values are log 6 and log 7). -/
def Obligations.ResetHasTheInvariant : Prop := State.reset.Inv

/-- R33, R157: the block as constructed has the values `RESET_STATE` and `VRAM_INIT` give it, every latch empty and no
halt (D15, D16, D17, D19), and the invariant, for every legal `RESET_STATE` and every canonical `VRAM_INIT`. -/
def Obligations.EveryLegalConstructionHasTheInvariant : Prop :=
  ∀ (p : Params) (r : ResetState) (init : Vram), r.Legal → init.wf = true →
    let s := State.resetWith p r init
    s.Inv ∧
    s.wlCmd = none ∧ s.wlData = none ∧ s.wl = none ∧ s.rlCmd = none ∧ s.halted = false ∧
    s.ir = r.ir ∧
    s.cms = r.cms ∧ s.sgs = r.sgs ∧ s.nl = r.nl ∧
    s.vr = r.vr ∧ s.ct = r.ct ∧
    s.id = r.id ∧ s.am = r.am ∧ s.lg = r.lg ∧
    s.rt = r.rt ∧
    s.spt = r.spt ∧ s.gsh = r.gsh ∧ s.gsl = r.gsl ∧ s.rev = r.rev ∧ s.d = r.d ∧
    s.wm = r.wm ∧ s.ac = r.ac ∧ s.vram = init ∧ s.params = p

/-- R31: the parameters are fixed for a machine; no step changes them (that the state carries them is log 1). -/
def Obligations.ParametersNeverChange : Prop :=
  ∀ s t : State, step s = .next t → t.params = s.params

/-- R7, R36, R141 (D5, D20): no step depends on `LCD_BASE` or on `SEVERITY`, and none reveals them: the block at
another base address with other severities takes the same steps to the same states, but for those two parameters
themselves (that the state carries the parameters is log 1). -/
def Obligations.BaseAddressAndSeverityAreUnobservable : Prop :=
  ∀ (s : State) (base : Nat) (severity : SeverityTable),
    step (s.relabel base severity) = mapNext (State.relabel base severity) (step s)
end

