-- ==== Sys2Proof/Laws/AcNext.lean ====
section
/-! SUPPORT. The Address Counter's step on natural numbers. -/

namespace Sys2Proof.Machine

/-- The step with its Euclidean modulus written on natural numbers. -/
theorem acNext_eq (a : Nat) (d : Direction) :
    acNext a d =
      match d with
      | .increment =>
        let t := (a + 1) % acRange
        if t % rowPitch ≤ lastValidCol then t else ((t / rowPitch + 1) * rowPitch) % acRange
      | .decrement =>
        let t := (a + (acRange - 1)) % acRange
        if t % rowPitch ≤ lastValidCol then t else t / rowPitch * rowPitch + lastValidCol := by
  cases d with
  | increment =>
    have h : (((a : Int) + 1) % ((4224 : Nat) : Int)).toNat = (a + 1) % 4224 := by omega
    simp only [acNext, Direction.delta, validCol, vramCol, vramRow, acRange, h, decide_eq_true_eq]
  | decrement =>
    have h : (((a : Int) + -1) % ((4224 : Nat) : Int)).toNat = (a + (4224 - 1)) % 4224 := by omega
    simp only [acNext, Direction.delta, validCol, vramCol, vramRow, acRange, h, decide_eq_true_eq]

/-- The Address Counter stays inside the store (R26). -/
theorem acNext_lt (a : Nat) (d : Direction) : acNext a d < acRange := by
  rw [acNext_eq]
  cases d with
  | increment => simp only [acRange, rowPitch, lastValidCol]; split <;> omega
  | decrement => simp only [acRange, rowPitch, lastValidCol]; split <;> omega

@[simp] theorem toVramIndex_val (n : Nat) : (toVramIndex n).val = n % acRange := rfl

/-- The Address Counter after a step is the step's result, with no further reduction. -/
theorem toVramIndex_acNext_val (a : VramIndex) (d : Direction) : (toVramIndex (acNext a.val d)).val = acNext a.val d :=
  Nat.mod_eq_of_lt (acNext_lt a.val d)

end Sys2Proof.Machine
end

