-- ==== Sys2Proof/Laws/Decode.lean ====
section
/-! SUPPORT. The bits of the two decode keys. -/

namespace Sys2Proof

/-- A value of 16 bits shows no bit under a mask that is clear below bit 16. -/
theorem or_value_and_mask (x m : BusWord) (v : Word) (hm : m.setWidth 16 = 0#16) :
    (x ||| v.setWidth 32) &&& m = x &&& m := by
  ext i hi
  rcases Nat.lt_or_ge i 16 with h | h
  · have : m.getLsbD i = false := by
      have := congrArg (fun b : BitVec 16 => b.getLsbD i) hm
      simpa [h] using this
    simp [← BitVec.getLsbD_eq_getElem, this]
  · have : v.getLsbD i = false := BitVec.getLsbD_of_ge v i h
    simp [this]

/-- The value of a logical word (R62), whatever stands above it. -/
theorem wordValue_or (x : BusWord) (v : Word) (hx : x.extractLsb' 0 16 = 0#16) : wordValue (x ||| v.setWidth 32) = v := by
  ext i hi
  have h32 : i < 32 := by omega
  have : x[i] = false := by
    have := congrArg (fun b : BitVec 16 => b.getLsbD i) hx
    simpa [hi, BitVec.getLsbD_eq_getElem h32] using this
  simp [wordValue, this, h32, BitVec.getLsbD_eq_getElem hi]

/-- The bits of a logical word from bit 16 up do not depend on its value. -/
theorem extract_or_value (x : BusWord) (v : Word) (lo len : Nat) (hlo : 16 ≤ lo) :
    (x ||| v.setWidth 32).extractLsb' lo len = x.extractLsb' lo len := by
  ext i hi
  have : v.getLsbD (lo + i) = false := BitVec.getLsbD_of_ge v _ (by omega)
  simp [this]

/-! ## The bus key of a transaction (R59) -/

theorem busKey_eq_some {t : BusTransaction} {key : BusWord} :
    busKey t = some key ↔ t.offset < 2 ^ 31 ∧ t.access.writeBit ++ BitVec.ofNat 31 t.offset = key := by
  unfold busKey
  split <;> simp_all

/-- The offset is read back from the key. -/
theorem keyOffset_of_busKey {t : BusTransaction} {key : BusWord} (h : busKey t = some key) :
    keyOffset key = t.offset := by
  obtain ⟨hlt, rfl⟩ := busKey_eq_some.mp h
  have : (t.access.writeBit ++ BitVec.ofNat 31 t.offset).extractLsb' 0 31 = BitVec.ofNat 31 t.offset := by
    ext i hi
    rw [BitVec.getElem_extractLsb', Nat.zero_add, BitVec.getLsbD_append, if_pos (by simpa using hi),
      BitVec.getLsbD_eq_getElem hi]
  rw [keyOffset, this, BitVec.toNat_ofNat, Nat.mod_eq_of_lt hlt]

/-- The direction and the write data are read back from the key and the data. -/
theorem keyAccess_of_busKey {t : BusTransaction} {key : BusWord} (h : busKey t = some key) :
    keyAccess key t.access.value = t.access := by
  obtain ⟨-, rfl⟩ := busKey_eq_some.mp h
  have : (t.access.writeBit ++ BitVec.ofNat 31 t.offset).getLsbD 31 = t.access.writeBit.getLsbD 0 := by
    rw [BitVec.getLsbD_append]; rfl
  unfold keyAccess
  rw [this]
  cases t.access <;> simp [Access.writeBit, Access.value]

/-- The key of a write does not depend on its data. -/
theorem busKey_write (v w : BusWord) (o : Nat) : busKey ⟨.write v, o⟩ = busKey ⟨.write w, o⟩ := rfl

/-- A transaction with a key is decoded by it. -/
theorem decodeBus_of_key {t : BusTransaction} {key : BusWord} (h : busKey t = some key) :
    decodeBus t = decodeKey key t.access.value := by
  simp only [decodeBus, h]

/-! ### The transactions on the three registers (R37) -/

theorem decodeBus_rdStatus : decodeBus ⟨.read, 0x0⟩ = .rdStatus := by decide

theorem decodeBus_rdCmd : decodeBus ⟨.read, 0x8⟩ = .rdCmd := by decide

theorem decodeBus_rdData : decodeBus ⟨.read, 0x10⟩ = .rdData := by decide

theorem decodeBus_wrStatus (v : BusWord) : decodeBus ⟨.write v, 0x0⟩ = .wrStatus v := by
  have : busKey ⟨.write 0#32, 0x0⟩ = some 0x80000000#32 := by decide
  rw [decodeBus_of_key ((busKey_write v 0#32 _).trans this)]
  simp [decodeKey, Access.value]

theorem decodeBus_wrCmd (v : BusWord) : decodeBus ⟨.write v, 0x8⟩ = .wrCmd v := by
  have : busKey ⟨.write 0#32, 0x8⟩ = some 0x80000008#32 := by decide
  rw [decodeBus_of_key ((busKey_write v 0#32 _).trans this)]
  simp [decodeKey, Access.value]

theorem decodeBus_wrData (v : BusWord) : decodeBus ⟨.write v, 0x10⟩ = .wrData v := by
  have : busKey ⟨.write 0#32, 0x10⟩ = some 0x80000010#32 := by decide
  rw [decodeBus_of_key ((busKey_write v 0#32 _).trans this)]
  simp [decodeKey, Access.value]

/-! ## The logical word of a Data write (R62, R64) -/

theorem dataWord_selector : ∀ n : Fin 19,
    let x := 0x80000000#32 ||| (((BitVec.ofNat 16 n.val).extractLsb' 0 5).setWidth 32 <<< 24)
    wordReg x = 0b10#2 ∧ x.getLsbD 29 = false ∧ (wordIrx x).toNat = n.val ∧ x.extractLsb' 0 16 = 0#16 := by
  decide

/-- A Data word decodes to the row its Index Register value selects, with its value. -/
theorem decode_dataWord (ir v : Word) (h : ir ≤ 0x12#16) :
    decode (.logical (dataWord ir v)) = .ok (decodeData ir.toNat v) := by
  have hle : ir.toNat < 19 := by
    have : ir.toNat ≤ 18 := by simpa [BitVec.le_def] using h
    omega
  obtain ⟨h1, h2, h3, h4⟩ := dataWord_selector ⟨_, hle⟩
  simp only [BitVec.ofNat_toNat, BitVec.setWidth_eq] at h1 h2 h3 h4
  have e1 : wordReg (dataWord ir v) = 0b10#2 := (extract_or_value _ v 30 2 (by omega)).trans h1
  have e2 : (dataWord ir v).getLsbD 29 = false := by
    unfold dataWord
    rw [BitVec.getLsbD_or, h2]
    simp
  have e3 : (wordIrx (dataWord ir v)).toNat = ir.toNat :=
    (congrArg BitVec.toNat (extract_or_value _ v 24 5 (by omega))).trans h3
  have e4 : wordValue (dataWord ir v) = v := wordValue_or _ v h4
  simp only [decode, decodeLogical, e1, e2, e3, e4]
  simp

end Sys2Proof
end

