-- ==== Sys2Proof/Laws/State.lean ====
section
/-! SUPPORT. One lemma per field for each shared update of the state, so that no proof unfolds one. -/

namespace Sys2Proof.Machine

variable (s : State) (r : Result) (c : Cause) (l : LatchReg) (o : Option Byte)

/-! ## `reply` -/

@[simp] theorem State.reply_wlCmd : (s.reply r).wlCmd = s.wlCmd := rfl
@[simp] theorem State.reply_wlData : (s.reply r).wlData = s.wlData := rfl
@[simp] theorem State.reply_wl : (s.reply r).wl = s.wl := rfl
@[simp] theorem State.reply_rlCmd : (s.reply r).rlCmd = s.rlCmd := rfl
@[simp] theorem State.reply_ir : (s.reply r).ir = s.ir := rfl
@[simp] theorem State.reply_cms : (s.reply r).cms = s.cms := rfl
@[simp] theorem State.reply_sgs : (s.reply r).sgs = s.sgs := rfl
@[simp] theorem State.reply_nl : (s.reply r).nl = s.nl := rfl
@[simp] theorem State.reply_vr : (s.reply r).vr = s.vr := rfl
@[simp] theorem State.reply_ct : (s.reply r).ct = s.ct := rfl
@[simp] theorem State.reply_id : (s.reply r).id = s.id := rfl
@[simp] theorem State.reply_am : (s.reply r).am = s.am := rfl
@[simp] theorem State.reply_lg : (s.reply r).lg = s.lg := rfl
@[simp] theorem State.reply_rt : (s.reply r).rt = s.rt := rfl
@[simp] theorem State.reply_spt : (s.reply r).spt = s.spt := rfl
@[simp] theorem State.reply_gsh : (s.reply r).gsh = s.gsh := rfl
@[simp] theorem State.reply_gsl : (s.reply r).gsl = s.gsl := rfl
@[simp] theorem State.reply_rev : (s.reply r).rev = s.rev := rfl
@[simp] theorem State.reply_d : (s.reply r).d = s.d := rfl
@[simp] theorem State.reply_wm : (s.reply r).wm = s.wm := rfl
@[simp] theorem State.reply_ac : (s.reply r).ac = s.ac := rfl
@[simp] theorem State.reply_vram : (s.reply r).vram = s.vram := rfl
@[simp] theorem State.reply_halted : (s.reply r).halted = s.halted := rfl
@[simp] theorem State.reply_params : (s.reply r).params = s.params := rfl
@[simp] theorem State.reply_pending : (s.reply r).pending = s.pending := rfl
@[simp] theorem State.reply_result : (s.reply r).result = some r := rfl
@[simp] theorem State.reply_snapshot : (s.reply r).snapshot = s.snapshot := rfl
@[simp] theorem State.reply_invertRead : (s.reply r).invertRead = s.invertRead := rfl

/-! ## `raiseViolation` is a reply; `raiseFatal` replies and halts -/

@[simp] theorem State.raiseViolation_eq : s.raiseViolation c = s.reply (.contractViolation c) := rfl
@[simp] theorem State.raiseFatal_wlCmd : (s.raiseFatal c).wlCmd = s.wlCmd := rfl
@[simp] theorem State.raiseFatal_wlData : (s.raiseFatal c).wlData = s.wlData := rfl
@[simp] theorem State.raiseFatal_wl : (s.raiseFatal c).wl = s.wl := rfl
@[simp] theorem State.raiseFatal_rlCmd : (s.raiseFatal c).rlCmd = s.rlCmd := rfl
@[simp] theorem State.raiseFatal_ir : (s.raiseFatal c).ir = s.ir := rfl
@[simp] theorem State.raiseFatal_cms : (s.raiseFatal c).cms = s.cms := rfl
@[simp] theorem State.raiseFatal_sgs : (s.raiseFatal c).sgs = s.sgs := rfl
@[simp] theorem State.raiseFatal_nl : (s.raiseFatal c).nl = s.nl := rfl
@[simp] theorem State.raiseFatal_vr : (s.raiseFatal c).vr = s.vr := rfl
@[simp] theorem State.raiseFatal_ct : (s.raiseFatal c).ct = s.ct := rfl
@[simp] theorem State.raiseFatal_id : (s.raiseFatal c).id = s.id := rfl
@[simp] theorem State.raiseFatal_am : (s.raiseFatal c).am = s.am := rfl
@[simp] theorem State.raiseFatal_lg : (s.raiseFatal c).lg = s.lg := rfl
@[simp] theorem State.raiseFatal_rt : (s.raiseFatal c).rt = s.rt := rfl
@[simp] theorem State.raiseFatal_spt : (s.raiseFatal c).spt = s.spt := rfl
@[simp] theorem State.raiseFatal_gsh : (s.raiseFatal c).gsh = s.gsh := rfl
@[simp] theorem State.raiseFatal_gsl : (s.raiseFatal c).gsl = s.gsl := rfl
@[simp] theorem State.raiseFatal_rev : (s.raiseFatal c).rev = s.rev := rfl
@[simp] theorem State.raiseFatal_d : (s.raiseFatal c).d = s.d := rfl
@[simp] theorem State.raiseFatal_wm : (s.raiseFatal c).wm = s.wm := rfl
@[simp] theorem State.raiseFatal_ac : (s.raiseFatal c).ac = s.ac := rfl
@[simp] theorem State.raiseFatal_vram : (s.raiseFatal c).vram = s.vram := rfl
@[simp] theorem State.raiseFatal_halted : (s.raiseFatal c).halted = true := rfl
@[simp] theorem State.raiseFatal_params : (s.raiseFatal c).params = s.params := rfl
@[simp] theorem State.raiseFatal_pending : (s.raiseFatal c).pending = s.pending := rfl
@[simp] theorem State.raiseFatal_result : (s.raiseFatal c).result = some (.fatalError c) := rfl
@[simp] theorem State.raiseFatal_snapshot : (s.raiseFatal c).snapshot = s.snapshot := rfl
@[simp] theorem State.raiseFatal_invertRead : (s.raiseFatal c).invertRead = s.invertRead := rfl

/-! ## `setWriteLatch` changes a write latch and nothing else -/

@[simp] theorem State.setWriteLatch_rlCmd : (s.setWriteLatch l o).rlCmd = s.rlCmd := by
  unfold State.setWriteLatch; split <;> rfl
@[simp] theorem State.setWriteLatch_ir : (s.setWriteLatch l o).ir = s.ir := by
  unfold State.setWriteLatch; split <;> rfl
@[simp] theorem State.setWriteLatch_cms : (s.setWriteLatch l o).cms = s.cms := by
  unfold State.setWriteLatch; split <;> rfl
@[simp] theorem State.setWriteLatch_sgs : (s.setWriteLatch l o).sgs = s.sgs := by
  unfold State.setWriteLatch; split <;> rfl
@[simp] theorem State.setWriteLatch_nl : (s.setWriteLatch l o).nl = s.nl := by
  unfold State.setWriteLatch; split <;> rfl
@[simp] theorem State.setWriteLatch_vr : (s.setWriteLatch l o).vr = s.vr := by
  unfold State.setWriteLatch; split <;> rfl
@[simp] theorem State.setWriteLatch_ct : (s.setWriteLatch l o).ct = s.ct := by
  unfold State.setWriteLatch; split <;> rfl
@[simp] theorem State.setWriteLatch_id : (s.setWriteLatch l o).id = s.id := by
  unfold State.setWriteLatch; split <;> rfl
@[simp] theorem State.setWriteLatch_am : (s.setWriteLatch l o).am = s.am := by
  unfold State.setWriteLatch; split <;> rfl
@[simp] theorem State.setWriteLatch_lg : (s.setWriteLatch l o).lg = s.lg := by
  unfold State.setWriteLatch; split <;> rfl
@[simp] theorem State.setWriteLatch_rt : (s.setWriteLatch l o).rt = s.rt := by
  unfold State.setWriteLatch; split <;> rfl
@[simp] theorem State.setWriteLatch_spt : (s.setWriteLatch l o).spt = s.spt := by
  unfold State.setWriteLatch; split <;> rfl
@[simp] theorem State.setWriteLatch_gsh : (s.setWriteLatch l o).gsh = s.gsh := by
  unfold State.setWriteLatch; split <;> rfl
@[simp] theorem State.setWriteLatch_gsl : (s.setWriteLatch l o).gsl = s.gsl := by
  unfold State.setWriteLatch; split <;> rfl
@[simp] theorem State.setWriteLatch_rev : (s.setWriteLatch l o).rev = s.rev := by
  unfold State.setWriteLatch; split <;> rfl
@[simp] theorem State.setWriteLatch_d : (s.setWriteLatch l o).d = s.d := by
  unfold State.setWriteLatch; split <;> rfl
@[simp] theorem State.setWriteLatch_wm : (s.setWriteLatch l o).wm = s.wm := by
  unfold State.setWriteLatch; split <;> rfl
@[simp] theorem State.setWriteLatch_ac : (s.setWriteLatch l o).ac = s.ac := by
  unfold State.setWriteLatch; split <;> rfl
@[simp] theorem State.setWriteLatch_vram : (s.setWriteLatch l o).vram = s.vram := by
  unfold State.setWriteLatch; split <;> rfl
@[simp] theorem State.setWriteLatch_halted : (s.setWriteLatch l o).halted = s.halted := by
  unfold State.setWriteLatch; split <;> rfl
@[simp] theorem State.setWriteLatch_params : (s.setWriteLatch l o).params = s.params := by
  unfold State.setWriteLatch; split <;> rfl
@[simp] theorem State.setWriteLatch_pending : (s.setWriteLatch l o).pending = s.pending := by
  unfold State.setWriteLatch; split <;> rfl
@[simp] theorem State.setWriteLatch_result : (s.setWriteLatch l o).result = s.result := by
  unfold State.setWriteLatch; split <;> rfl
@[simp] theorem State.setWriteLatch_snapshot : (s.setWriteLatch l o).snapshot = s.snapshot := by
  unfold State.setWriteLatch; split <;> rfl
@[simp] theorem State.setWriteLatch_invertRead : (s.setWriteLatch l o).invertRead = s.invertRead := by
  unfold State.setWriteLatch; split <;> rfl

theorem State.setWriteLatch_command_perRegister (h : s.params.latchSharing = .perRegister) :
    s.setWriteLatch .command o = { s with wlCmd := o } := by
  simp [State.setWriteLatch, h]

theorem State.setWriteLatch_data_perRegister (h : s.params.latchSharing = .perRegister) :
    s.setWriteLatch .data o = { s with wlData := o } := by
  simp [State.setWriteLatch, h]

theorem State.setWriteLatch_shared (h : s.params.latchSharing = .shared) :
    s.setWriteLatch l o = { s with wl := o } := by
  simp [State.setWriteLatch, h]

/-! ## The display port writes only what the display reader has read -/

@[simp] theorem takeSnapshot_wlCmd : (takeSnapshot s).wlCmd = s.wlCmd := rfl
@[simp] theorem takeSnapshot_wlData : (takeSnapshot s).wlData = s.wlData := rfl
@[simp] theorem takeSnapshot_wl : (takeSnapshot s).wl = s.wl := rfl
@[simp] theorem takeSnapshot_rlCmd : (takeSnapshot s).rlCmd = s.rlCmd := rfl
@[simp] theorem takeSnapshot_ir : (takeSnapshot s).ir = s.ir := rfl
@[simp] theorem takeSnapshot_cms : (takeSnapshot s).cms = s.cms := rfl
@[simp] theorem takeSnapshot_sgs : (takeSnapshot s).sgs = s.sgs := rfl
@[simp] theorem takeSnapshot_nl : (takeSnapshot s).nl = s.nl := rfl
@[simp] theorem takeSnapshot_vr : (takeSnapshot s).vr = s.vr := rfl
@[simp] theorem takeSnapshot_ct : (takeSnapshot s).ct = s.ct := rfl
@[simp] theorem takeSnapshot_id : (takeSnapshot s).id = s.id := rfl
@[simp] theorem takeSnapshot_am : (takeSnapshot s).am = s.am := rfl
@[simp] theorem takeSnapshot_lg : (takeSnapshot s).lg = s.lg := rfl
@[simp] theorem takeSnapshot_rt : (takeSnapshot s).rt = s.rt := rfl
@[simp] theorem takeSnapshot_spt : (takeSnapshot s).spt = s.spt := rfl
@[simp] theorem takeSnapshot_gsh : (takeSnapshot s).gsh = s.gsh := rfl
@[simp] theorem takeSnapshot_gsl : (takeSnapshot s).gsl = s.gsl := rfl
@[simp] theorem takeSnapshot_rev : (takeSnapshot s).rev = s.rev := rfl
@[simp] theorem takeSnapshot_d : (takeSnapshot s).d = s.d := rfl
@[simp] theorem takeSnapshot_wm : (takeSnapshot s).wm = s.wm := rfl
@[simp] theorem takeSnapshot_ac : (takeSnapshot s).ac = s.ac := rfl
@[simp] theorem takeSnapshot_vram : (takeSnapshot s).vram = s.vram := rfl
@[simp] theorem takeSnapshot_halted : (takeSnapshot s).halted = s.halted := rfl
@[simp] theorem takeSnapshot_params : (takeSnapshot s).params = s.params := rfl
@[simp] theorem takeSnapshot_pending : (takeSnapshot s).pending = s.pending := rfl
@[simp] theorem takeSnapshot_result : (takeSnapshot s).result = s.result := rfl
@[simp] theorem takeSnapshot_snapshot : (takeSnapshot s).snapshot = some s.vram := rfl
@[simp] theorem takeSnapshot_invertRead : (takeSnapshot s).invertRead = s.invertRead := rfl
@[simp] theorem takeInvert_wlCmd : (takeInvert s).wlCmd = s.wlCmd := rfl
@[simp] theorem takeInvert_wlData : (takeInvert s).wlData = s.wlData := rfl
@[simp] theorem takeInvert_wl : (takeInvert s).wl = s.wl := rfl
@[simp] theorem takeInvert_rlCmd : (takeInvert s).rlCmd = s.rlCmd := rfl
@[simp] theorem takeInvert_ir : (takeInvert s).ir = s.ir := rfl
@[simp] theorem takeInvert_cms : (takeInvert s).cms = s.cms := rfl
@[simp] theorem takeInvert_sgs : (takeInvert s).sgs = s.sgs := rfl
@[simp] theorem takeInvert_nl : (takeInvert s).nl = s.nl := rfl
@[simp] theorem takeInvert_vr : (takeInvert s).vr = s.vr := rfl
@[simp] theorem takeInvert_ct : (takeInvert s).ct = s.ct := rfl
@[simp] theorem takeInvert_id : (takeInvert s).id = s.id := rfl
@[simp] theorem takeInvert_am : (takeInvert s).am = s.am := rfl
@[simp] theorem takeInvert_lg : (takeInvert s).lg = s.lg := rfl
@[simp] theorem takeInvert_rt : (takeInvert s).rt = s.rt := rfl
@[simp] theorem takeInvert_spt : (takeInvert s).spt = s.spt := rfl
@[simp] theorem takeInvert_gsh : (takeInvert s).gsh = s.gsh := rfl
@[simp] theorem takeInvert_gsl : (takeInvert s).gsl = s.gsl := rfl
@[simp] theorem takeInvert_rev : (takeInvert s).rev = s.rev := rfl
@[simp] theorem takeInvert_d : (takeInvert s).d = s.d := rfl
@[simp] theorem takeInvert_wm : (takeInvert s).wm = s.wm := rfl
@[simp] theorem takeInvert_ac : (takeInvert s).ac = s.ac := rfl
@[simp] theorem takeInvert_vram : (takeInvert s).vram = s.vram := rfl
@[simp] theorem takeInvert_halted : (takeInvert s).halted = s.halted := rfl
@[simp] theorem takeInvert_params : (takeInvert s).params = s.params := rfl
@[simp] theorem takeInvert_pending : (takeInvert s).pending = s.pending := rfl
@[simp] theorem takeInvert_result : (takeInvert s).result = s.result := rfl
@[simp] theorem takeInvert_snapshot : (takeInvert s).snapshot = s.snapshot := rfl
@[simp] theorem takeInvert_invertRead : (takeInvert s).invertRead = some s.rev := rfl

/-! ## A construction of the block -/

variable (p : Params) (rs : ResetState) (init : Vram)

@[simp] theorem State.resetWith_ir : (State.resetWith p rs init).ir = rs.ir := rfl
@[simp] theorem State.resetWith_am : (State.resetWith p rs init).am = rs.am := rfl
@[simp] theorem State.resetWith_vram : (State.resetWith p rs init).vram = init := rfl
@[simp] theorem State.resetWith_halted : (State.resetWith p rs init).halted = false := rfl
@[simp] theorem State.resetWith_params : (State.resetWith p rs init).params = p := rfl
@[simp] theorem State.resetWith_wlCmd : (State.resetWith p rs init).wlCmd = none := rfl
@[simp] theorem State.resetWith_wlData : (State.resetWith p rs init).wlData = none := rfl
@[simp] theorem State.resetWith_wl : (State.resetWith p rs init).wl = none := rfl
@[simp] theorem State.resetWith_result : (State.resetWith p rs init).result = none := rfl
@[simp] theorem State.resetWith_ac : (State.resetWith p rs init).ac = rs.ac := rfl

end Sys2Proof.Machine
end

