-- ==== Sys2Proof/Laws/Ops.lean ====
section
/-! SUPPORT. What each shared operation can do, said once. -/

namespace Sys2Proof.Machine

variable {s t : State}

/-! ## The check every transaction begins with -/

theorem whenRunning_running (h : s.halted = false) (o : Host.Outcome State Fault Refusal) :
    whenRunning s o = o := by
  simp [whenRunning, h]

theorem whenRunning_halted (h : s.halted = true) (o : Host.Outcome State Fault Refusal) :
    whenRunning s o = .fault .halted := by
  simp [whenRunning, h]

/-- A transaction that answers a next state was taken by a running block. -/
theorem whenRunning_eq_next {o : Host.Outcome State Fault Refusal} :
    whenRunning s o = .next t ↔ s.halted = false ∧ o = .next t := by
  cases h : s.halted <;> simp [whenRunning, h]

/-! ## The byte latches -/

@[simp] theorem writeLatch_setWriteLatch (s : State) (r : LatchReg) (o : Option Byte) :
    (s.setWriteLatch r o).writeLatch r = o := by
  cases h : s.params.latchSharing <;> cases r <;> simp [State.setWriteLatch, State.writeLatch, h]

/-- Under `PerRegister` a write to one register leaves the other's latch alone (R17). -/
theorem writeLatch_setWriteLatch_other (h : s.params.latchSharing = .perRegister) {r r' : LatchReg}
    (hr : r' ≠ r) (o : Option Byte) : (s.setWriteLatch r o).writeLatch r' = s.writeLatch r' := by
  cases r <;> cases r' <;> simp_all [State.setWriteLatch, State.writeLatch]

theorem latchWrite_first {r : LatchReg} (h : s.writeLatch r = none) (value : BusWord)
    (k : Word → State → Host.Outcome State Fault Refusal) :
    latchWrite r value s k = .next ((s.setWriteLatch r (some (byteOf value))).reply .ok) := by
  simp [latchWrite, h]

theorem latchWrite_second {r : LatchReg} {b : Byte} (h : s.writeLatch r = some b) (value : BusWord)
    (k : Word → State → Host.Outcome State Fault Refusal) :
    latchWrite r value s k = k (bytePair b (byteOf value)) (s.setWriteLatch r none) := by
  simp [latchWrite, h]

/-- Of two settings of one write latch the last counts. -/
@[simp] theorem setWriteLatch_setWriteLatch (s : State) (r : LatchReg) (o o' : Option Byte) :
    (s.setWriteLatch r o).setWriteLatch r o' = s.setWriteLatch r o' := by
  cases h : s.params.latchSharing <;> cases r <;> simp [State.setWriteLatch, h]

/-- Setting a write latch to what it holds changes nothing. -/
theorem setWriteLatch_writeLatch (s : State) (r : LatchReg) : s.setWriteLatch r (s.writeLatch r) = s := by
  cases h : s.params.latchSharing <;> cases r <;> simp [State.setWriteLatch, State.writeLatch, h]

/-- A byte pair taken apart (R41). -/
@[simp] theorem highByte_bytePair (h l : Byte) : highByte (bytePair h l) = h := by
  ext i hi
  have h8 : ¬ 8 + i < 8 := by omega
  have h16 : 8 + i < 16 := by omega
  simp [highByte, bytePair, h8, h16, hi]

@[simp] theorem lowByte_bytePair (h l : Byte) : lowByte (bytePair h l) = l := by
  ext i hi
  have hi16 : i < 16 := by omega
  simp [lowByte, bytePair, hi, hi16]

/-- A value put together again from its bytes, high byte first (R41). -/
@[simp] theorem bytePair_bytes (v : Word) : bytePair (highByte v) (lowByte v) = v := by
  ext i hi
  simp only [bytePair, highByte, lowByte, BitVec.getElem_or, BitVec.getElem_shiftLeft, BitVec.getElem_setWidth,
    BitVec.getLsbD_extractLsb']
  rcases Nat.lt_or_ge i 8 with h | h
  · simp [h, BitVec.getLsbD_eq_getElem hi]
  · have : ¬ i < 8 := by omega
    have h8 : i - 8 < 8 := by omega
    have h16 : 8 + (i - 8) = i := by omega
    simp [this, h8, h16, BitVec.getLsbD_eq_getElem hi]

/-! ## Data dispatch -/

/-- `DATA_DISPATCH` runs the Data row that the Index Register selects (R85, R70). -/
theorem dataDispatch_eq_exec (v : Word) (h : s.ir ≤ 0x12#16) :
    dataDispatch v s = exec (decodeData s.ir.toNat v) s := by
  have hle : s.ir.toNat ≤ 18 := by simpa [BitVec.le_def] using h
  unfold dataDispatch
  generalize s.ir.toNat = n at hle
  interval_cases n <;> rfl

/-- An Index Register value above 0x12 is undefined dispatch (R79, R126). -/
theorem dataDispatch_above (v : Word) (h : ¬ s.ir ≤ 0x12#16) : dataDispatch v s = undefinedDispatch s := by
  have hgt : 18 < s.ir.toNat := by simpa [BitVec.le_def] using h
  unfold dataDispatch
  split <;> first | omega | rfl

end Sys2Proof.Machine
end

