-- ==== Sys2Proof/Laws/Exec.lean ====
section
/-! SUPPORT. What a transaction can do, said once: the byte-latched writes taken apart, and the part of the state
that no logical write touches. -/

namespace Sys2Proof.Machine

variable {s t : State}

/-- A `WR_CMD` either latches the first byte or runs `SET_IR` on the drained latch (R83, R88). -/
theorem exec_wrCmd_cases {value : BusWord} (h : exec (.wrCmd value) s = .next t) :
    s.halted = false ∧
    ((s.writeLatch .command = none ∧ t = (s.setWriteLatch .command (some (byteOf value))).reply .ok) ∨
     (∃ b, s.writeLatch .command = some b ∧
        exec (.setIr (bytePair b (byteOf value))) (s.setWriteLatch .command none) = .next t)) := by
  simp only [exec, execWrCmd, whenRunning_eq_next] at h
  obtain ⟨hr, h⟩ := h
  refine ⟨hr, ?_⟩
  cases hl : s.writeLatch .command with
  | none => exact .inl ⟨rfl, by simpa [latchWrite_first hl] using h.symm⟩
  | some b => exact .inr ⟨b, rfl, by simpa [latchWrite_second hl, exec] using h⟩

/-- A `WR_DATA` either latches the first byte, or runs on the drained latch the Data row that the Index Register
selects, or, with an Index Register value above 0x12, halts (R85, R88, R79). -/
theorem exec_wrData_cases {value : BusWord} (h : exec (.wrData value) s = .next t) :
    s.halted = false ∧
    ((s.writeLatch .data = none ∧ t = (s.setWriteLatch .data (some (byteOf value))).reply .ok) ∨
     (∃ b, s.writeLatch .data = some b ∧ s.ir ≤ 0x12#16 ∧
        exec (decodeData s.ir.toNat (bytePair b (byteOf value))) (s.setWriteLatch .data none) = .next t) ∨
     (∃ b, s.writeLatch .data = some b ∧ ¬ s.ir ≤ 0x12#16 ∧
        t = (s.setWriteLatch .data none).raiseFatal (.undefinedDispatch s.ir))) := by
  simp only [exec, execWrData, whenRunning_eq_next] at h
  obtain ⟨hr, h⟩ := h
  refine ⟨hr, ?_⟩
  cases hl : s.writeLatch .data with
  | none => exact .inl ⟨rfl, by simpa [latchWrite_first hl] using h.symm⟩
  | some b =>
    refine .inr ?_
    rw [latchWrite_second hl] at h
    by_cases hir : s.ir ≤ 0x12#16
    · exact .inl ⟨b, rfl, hir, by simpa [dataDispatch_eq_exec _ (s := s.setWriteLatch .data none) (by simpa using hir)] using h⟩
    · refine .inr ⟨b, rfl, hir, ?_⟩
      rw [dataDispatch_above _ (s := s.setWriteLatch .data none) (by simpa using hir)] at h
      simpa [undefinedDispatch, whenRunning, hr] using h.symm

/-- The Data row that an index selects is a logical write. -/
theorem isLogical_decodeData (n : Nat) (v : Word) : isLogical (decodeData n v) = true := by
  unfold decodeData
  split <;> rfl

/-- What a logical write leaves alone: the latches, and everything the model has added. -/
structure LogicalFrame (s t : State) : Prop where
  running : s.halted = false
  wlCmd : t.wlCmd = s.wlCmd
  wlData : t.wlData = s.wlData
  wl : t.wl = s.wl
  rlCmd : t.rlCmd = s.rlCmd
  params : t.params = s.params
  pending : t.pending = s.pending
  snapshot : t.snapshot = s.snapshot
  invertRead : t.invertRead = s.invertRead

theorem logicalFrame_of_next {i : Instr} (hi : isLogical i = true) (h : exec i s = .next t) : LogicalFrame s t := by
  cases i <;> first
    | (simp [isLogical, opcodeRow] at hi; done)
    | (simp only [exec, execSetIr, execDataEntryMode, execDataWriteCgram, execDataR00, execDataDriverOutput,
        execDataR02, execDataR03, execDataContrast, execDataRotation, execDataDisplayControl, execDataR08,
        execDataNop09, execDataNop0A, execDataHcursor, execDataR0C, execDataR0D, execDataR0E, execDataR0F,
        execDataWriteMask, execDataRamAddress, unimplementedCommand, undefinedDispatch, whenRunning_eq_next,
        Host.Outcome.next.injEq] at h
       obtain ⟨hr, rfl⟩ := h
       constructor <;> first | assumption | rfl | (split <;> rfl))

/-- A bus transaction changes neither the schedule nor what the display reader has read. -/
theorem exec_keeps_environment {i : Instr} (h : exec i s = .next t) :
    t.params = s.params ∧ t.pending = s.pending ∧ t.snapshot = s.snapshot ∧ t.invertRead = s.invertRead := by
  by_cases hi : isLogical i = true
  · have f := logicalFrame_of_next hi h
    exact ⟨f.params, f.pending, f.snapshot, f.invertRead⟩
  cases i <;> first
    | exact absurd rfl hi
    | (simp only [exec, execRdStatus, execWrStatus, execRdCmd, execRdData, execUnmapped, whenRunning_eq_next,
        Host.Outcome.next.injEq] at h
       obtain ⟨-, rfl⟩ := h
       first | exact ⟨rfl, rfl, rfl, rfl⟩ | (split <;> exact ⟨rfl, rfl, rfl, rfl⟩))
    | skip
  case wrCmd value =>
    obtain ⟨-, ⟨-, rfl⟩ | ⟨b, -, h⟩⟩ := exec_wrCmd_cases h
    · simp
    · have f := logicalFrame_of_next rfl h
      simp [f.params, f.pending, f.snapshot, f.invertRead]
  case wrData value =>
    obtain ⟨-, ⟨-, rfl⟩ | ⟨b, -, -, h⟩ | ⟨b, -, -, rfl⟩⟩ := exec_wrData_cases h
    · simp
    · have f := logicalFrame_of_next (isLogical_decodeData _ _) h
      simp [f.params, f.pending, f.snapshot, f.invertRead]
    · simp

/-- Everything a logical write can do to a running block (R93, R98 to R105, R111, R113, R125, R126). -/
inductive LogicalEffect (s : State) : Instr → State → Prop
  | setIr (v : Word) (hv : v ≤ 0x12#16) : LogicalEffect s (.setIr v) ({ s with ir := v }.reply .ok)
  | setIrRejected (v : Word) (hv : ¬ v ≤ 0x12#16) :
    LogicalEffect s (.setIr v) (s.reply (.contractViolation (.irOutOfRange v)))
  | driverOutput (v : Word) :
    LogicalEffect s (.dataDriverOutput v) ({ s with
      cms := field v s.params.layout.cms 1
      sgs := field v s.params.layout.sgs 1
      nl := field v s.params.layout.nl 5 }.reply .ok)
  | contrast (v : Word) :
    LogicalEffect s (.dataContrast v) ({ s with
      vr := field v s.params.layout.vr 3
      ct := field v s.params.layout.ct 7 }.reply .ok)
  | entryMode (v : Word) (hv : field v s.params.layout.am 2 ≠ 0b11#2) :
    LogicalEffect s (.dataEntryMode v) ({ s with
      id := field v s.params.layout.id 1
      am := field v s.params.layout.am 2
      lg := field v s.params.layout.lg 2 }.reply .ok)
  | entryModeRejected (v : Word) (hv : field v s.params.layout.am 2 = 0b11#2) :
    LogicalEffect s (.dataEntryMode v) (s.reply (.contractViolation (.amInvalid v)))
  | rotation (v : Word) :
    LogicalEffect s (.dataRotation v) ({ s with rt := field v s.params.layout.rt 3 }.reply .ok)
  | displayControl (v : Word) :
    LogicalEffect s (.dataDisplayControl v) ({ s with
      spt := field v s.params.layout.spt 1
      gsh := field v s.params.layout.gsh 2
      gsl := field v s.params.layout.gsl 2
      rev := field v revPosition 1
      d := field v s.params.layout.d 1 }.reply .ok)
  | noOp (i : Instr) (hi : ∃ v, i = .dataNop09 v ∨ i = .dataNop0A v) : LogicalEffect s i (s.reply .ok)
  | writeMask (v : Word) : LogicalEffect s (.dataWriteMask v) ({ s with wm := v }.reply .ok)
  | ramAddress (v : Word) :
    LogicalEffect s (.dataRamAddress v) ({ s with ac := toVramIndex v.toNat }.reply .ok)
  | writeCgram (v : Word) (ha : s.am = 0b00#2) :
    LogicalEffect s (.dataWriteCgram v) ({ s with
      vram := vramWrite s.vram s.ac.val (s.wordToStore v)
      ac := toVramIndex (acNext s.ac.val s.direction) }.reply .ok)
  | writeCgramFatal (v : Word) (ha : s.am ≠ 0b00#2) :
    LogicalEffect s (.dataWriteCgram v)
      ({ s with vram := vramWrite s.vram s.ac.val (s.wordToStore v) }.raiseFatal (.amUnimplemented s.am))
  | unimplemented (i : Instr)
      (hi : ∃ v, i = .dataR02 v ∨ i = .dataR03 v ∨ i = .dataR08 v ∨ i = .dataHcursor v ∨ i = .dataR0C v ∨
        i = .dataR0D v ∨ i = .dataR0E v) :
    LogicalEffect s i (s.raiseFatal (.unimplemented s.ir))
  | undefined (i : Instr) (hi : ∃ v, i = .dataR00 v ∨ i = .dataR0F v) :
    LogicalEffect s i (s.raiseFatal (.undefinedDispatch s.ir))

/-- A logical write answers a next state exactly by one of its effects, on a running block. -/
theorem logicalEffect_of_next {i : Instr} (hi : isLogical i = true) (h : exec i s = .next t) : LogicalEffect s i t := by
  have hr := (logicalFrame_of_next hi h).running
  cases i
  case setIr v =>
    simp only [exec, execSetIr, whenRunning_running hr, Host.Outcome.next.injEq] at h
    subst h
    split
    · exact .setIr v ‹_›
    · exact .setIrRejected v ‹_›
  case dataEntryMode v =>
    simp only [exec, execDataEntryMode, whenRunning_running hr, Host.Outcome.next.injEq] at h
    subst h
    split
    · exact .entryModeRejected v ‹_›
    · exact .entryMode v ‹_›
  case dataWriteCgram v =>
    simp only [exec, execDataWriteCgram, whenRunning_running hr, Host.Outcome.next.injEq] at h
    subst h
    split
    · exact .writeCgram v ‹_›
    · exact .writeCgramFatal v ‹_›
  all_goals first
    | (simp [isLogical, opcodeRow] at hi; done)
    | (simp only [exec, execDataR00, execDataDriverOutput, execDataR02, execDataR03, execDataContrast,
        execDataRotation, execDataDisplayControl, execDataR08, execDataNop09, execDataNop0A, execDataHcursor,
        execDataR0C, execDataR0D, execDataR0E, execDataR0F, execDataWriteMask, execDataRamAddress,
        unimplementedCommand, undefinedDispatch, whenRunning_running hr, Host.Outcome.next.injEq] at h
       subst h
       first
        | exact .driverOutput _
        | exact .contrast _
        | exact .rotation _
        | exact .displayControl _
        | exact .writeMask _
        | exact .ramAddress _
        | exact .noOp _ ⟨_, .inl rfl⟩
        | exact .noOp _ ⟨_, .inr rfl⟩
        | exact .undefined _ ⟨_, .inl rfl⟩
        | exact .undefined _ ⟨_, .inr rfl⟩
        | exact .unimplemented _ ⟨_, .inl rfl⟩
        | exact .unimplemented _ ⟨_, .inr (.inl rfl)⟩
        | exact .unimplemented _ ⟨_, .inr (.inr (.inl rfl))⟩
        | exact .unimplemented _ ⟨_, .inr (.inr (.inr (.inl rfl)))⟩
        | exact .unimplemented _ ⟨_, .inr (.inr (.inr (.inr (.inl rfl))))⟩
        | exact .unimplemented _ ⟨_, .inr (.inr (.inr (.inr (.inr (.inl rfl)))))⟩
        | exact .unimplemented _ ⟨_, .inr (.inr (.inr (.inr (.inr (.inr rfl)))))⟩)

end Sys2Proof.Machine
end

