-- ==== Sys2Proof/Laws/PerInstr.lean ====
section
/-! SUPPORT. Families of statements made per instruction, one lemma per constructor of `Instr`. -/

namespace Sys2Proof.Laws.EncodesInRow

/-- The encoder agrees with the opcode table: the code of an instruction lies in the instruction's own row,
by format, match and mask. -/
def Statement (i : Instr) : Prop := ∀ c, encode i = some c → (opcodeRow i).holds c = true

/-- A bus row with a full mask. -/
theorem of_bus {i : Instr} {key value : BusWord} (he : encode i = some (.bus key value))
    (hr : opcodeRow i = ⟨.bus, key, 0xFFFFFFFF#32⟩) : Statement i := by
  intro c hc
  rw [he, Option.some.injEq] at hc
  subst hc
  have : key &&& 0xFFFFFFFF#32 = key := BitVec.and_allOnes
  simp [hr, OpcodeRow.holds, this]

/-- A logical row whose mask shows nothing of the value. -/
theorem of_logical {i : Instr} {x pattern mask : BusWord} {v : Word}
    (he : encode i = some (.logical (x ||| v.setWidth 32))) (hr : opcodeRow i = ⟨.logical, pattern, mask⟩)
    (hm : mask.setWidth 16 = 0#16) (hp : x &&& mask = pattern) : Statement i := by
  intro c hc
  rw [he, Option.some.injEq] at hc
  subst hc
  simp [hr, OpcodeRow.holds, or_value_and_mask x mask v hm, hp]

theorem rdStatus : Statement .rdStatus :=
  of_bus rfl rfl

theorem wrStatus (value : BusWord) : Statement (.wrStatus value) :=
  of_bus rfl rfl

theorem rdCmd : Statement .rdCmd :=
  of_bus rfl rfl

theorem wrCmd (value : BusWord) : Statement (.wrCmd value) :=
  of_bus rfl rfl

theorem rdData : Statement .rdData :=
  of_bus rfl rfl

theorem wrData (value : BusWord) : Statement (.wrData value) :=
  of_bus rfl rfl

theorem unmapped (access : Access) (offset : Nat) : Statement (.unmapped access offset) := by
  intro c _
  simp only [opcodeRow]
  cases c with
  | bus key val => simp [OpcodeRow.holds]
  | logical word =>
    rename_i h
    simp only [encode, Option.map_eq_some_iff] at h
    obtain ⟨_, _, h⟩ := h
    exact absurd h (by simp)

theorem setIr (v : Word) : Statement (.setIr v) :=
  of_logical rfl rfl (by decide) (by decide)

theorem dataR00 (v : Word) : Statement (.dataR00 v) :=
  of_logical rfl rfl (by decide) (by decide)

theorem dataDriverOutput (v : Word) : Statement (.dataDriverOutput v) :=
  of_logical rfl rfl (by decide) (by decide)

theorem dataR02 (v : Word) : Statement (.dataR02 v) :=
  of_logical rfl rfl (by decide) (by decide)

theorem dataR03 (v : Word) : Statement (.dataR03 v) :=
  of_logical rfl rfl (by decide) (by decide)

theorem dataContrast (v : Word) : Statement (.dataContrast v) :=
  of_logical rfl rfl (by decide) (by decide)

theorem dataEntryMode (v : Word) : Statement (.dataEntryMode v) :=
  of_logical rfl rfl (by decide) (by decide)

theorem dataRotation (v : Word) : Statement (.dataRotation v) :=
  of_logical rfl rfl (by decide) (by decide)

theorem dataDisplayControl (v : Word) : Statement (.dataDisplayControl v) :=
  of_logical rfl rfl (by decide) (by decide)

theorem dataR08 (v : Word) : Statement (.dataR08 v) :=
  of_logical rfl rfl (by decide) (by decide)

theorem dataNop09 (v : Word) : Statement (.dataNop09 v) :=
  of_logical rfl rfl (by decide) (by decide)

theorem dataNop0A (v : Word) : Statement (.dataNop0A v) :=
  of_logical rfl rfl (by decide) (by decide)

theorem dataHcursor (v : Word) : Statement (.dataHcursor v) :=
  of_logical rfl rfl (by decide) (by decide)

theorem dataR0C (v : Word) : Statement (.dataR0C v) :=
  of_logical rfl rfl (by decide) (by decide)

theorem dataR0D (v : Word) : Statement (.dataR0D v) :=
  of_logical rfl rfl (by decide) (by decide)

theorem dataR0E (v : Word) : Statement (.dataR0E v) :=
  of_logical rfl rfl (by decide) (by decide)

theorem dataR0F (v : Word) : Statement (.dataR0F v) :=
  of_logical rfl rfl (by decide) (by decide)

theorem dataWriteMask (v : Word) : Statement (.dataWriteMask v) :=
  of_logical rfl rfl (by decide) (by decide)

theorem dataRamAddress (v : Word) : Statement (.dataRamAddress v) :=
  of_logical rfl rfl (by decide) (by decide)

theorem dataWriteCgram (v : Word) : Statement (.dataWriteCgram v) :=
  of_logical rfl rfl (by decide) (by decide)

end Sys2Proof.Laws.EncodesInRow
end

