-- ==== Sys2Proof/Laws/Step.lean ====
section
/-! SUPPORT. What a step and a run can do, said once. -/

namespace Sys2Proof.Machine

variable {s t : State}

theorem step_idle (h : s.pending = []) : step s = .next s := by
  simp [step, nextEvent, h]

theorem step_bus {tr : BusTransaction} {rest : List Event} (h : s.pending = .bus tr :: rest) :
    step s = exec (decodeBus tr) { s with pending := rest } := by
  simp [step, nextEvent, h]

theorem step_snapshot {rest : List Event} (h : s.pending = .snapshot :: rest) :
    step s = .next (takeSnapshot { s with pending := rest }) := by
  simp [step, nextEvent, h]

theorem step_readInvert {rest : List Event} (h : s.pending = .readInvert :: rest) :
    step s = .next (takeInvert { s with pending := rest }) := by
  simp [step, nextEvent, h]

/-- Everything a step that answers a next state can have done. -/
theorem step_cases (h : step s = .next t) :
    (s.pending = [] ∧ t = s) ∨
    (∃ tr rest, s.pending = .bus tr :: rest ∧ exec (decodeBus tr) { s with pending := rest } = .next t) ∨
    (∃ rest, s.pending = .snapshot :: rest ∧ t = takeSnapshot { s with pending := rest }) ∨
    (∃ rest, s.pending = .readInvert :: rest ∧ t = takeInvert { s with pending := rest }) := by
  rcases hp : s.pending with _ | ⟨_ | _ | _, rest⟩
  · rw [step_idle hp, Host.Outcome.next.injEq] at h
    exact .inl ⟨rfl, h.symm⟩
  · rw [step_bus hp] at h
    exact .inr (.inl ⟨_, _, rfl, h⟩)
  · rw [step_snapshot hp, Host.Outcome.next.injEq] at h
    exact .inr (.inr (.inl ⟨_, rfl, h.symm⟩))
  · rw [step_readInvert hp, Host.Outcome.next.injEq] at h
    exact .inr (.inr (.inr ⟨_, rfl, h.symm⟩))

/-! ## Runs -/

/-- A run of one step and then the rest, on any machine. -/
theorem run_succ (M : Host.Core) (n : Nat) (x : M.State) :
    M.run (n + 1) x =
      match M.step x with
      | .next y => M.run n y
      | .fault r => .fault r
      | .refused r => .refused r := by
  cases h : M.step x <;> simp only [Host.Core.run, h]

theorem run_succ_next {n : Nat} (h : step s = .next t) :
    Sys2Proof.core.run (n + 1) s = Sys2Proof.core.run n t := by
  rw [run_succ Sys2Proof.core n s, show Sys2Proof.core.step s = step s from rfl, h]

theorem run_succ_fault {n : Nat} {r : Fault} (h : step s = .fault r) :
    Sys2Proof.core.run (n + 1) s = .fault r := by
  rw [run_succ Sys2Proof.core n s, show Sys2Proof.core.step s = step s from rfl, h]

theorem run_succ_refused {n : Nat} {r : Refusal} (h : step s = .refused r) :
    Sys2Proof.core.run (n + 1) s = .refused r := by
  rw [run_succ Sys2Proof.core n s, show Sys2Proof.core.step s = step s from rfl, h]

/-- A machine with no access pending waits. -/
theorem run_idle (n : Nat) (h : s.pending = []) : Sys2Proof.core.run n s = .next s := by
  induction n with
  | zero => rfl
  | succ n ih => rw [run_succ_next (step_idle h)]; exact ih

/-! ## An outcome seen through a function, and the two functions the statements use -/

@[simp] theorem mapNext_next (f : State → State) : mapNext f (.next s) = .next (f s) := rfl
@[simp] theorem mapNext_fault (f : State → State) (r : Fault) : mapNext f (.fault r) = .fault r := rfl
@[simp] theorem mapNext_refused (f : State → State) (r : Refusal) : mapNext f (.refused r) = .refused r := rfl

@[simp] theorem State.busView_writeLatch (l : LatchReg) : s.busView.writeLatch l = s.writeLatch l := by
  cases l <;> rfl

theorem State.busView_setWriteLatch (l : LatchReg) (o : Option Byte) :
    s.busView.setWriteLatch l o = (s.setWriteLatch l o).busView := by
  cases h : s.params.latchSharing <;> cases l <;> simp [State.setWriteLatch, State.busView, h]

variable {base : Nat} {severity : SeverityTable}

@[simp] theorem State.relabel_wlCmd : (s.relabel base severity).wlCmd = s.wlCmd := rfl
@[simp] theorem State.relabel_wlData : (s.relabel base severity).wlData = s.wlData := rfl
@[simp] theorem State.relabel_wl : (s.relabel base severity).wl = s.wl := rfl
@[simp] theorem State.relabel_rlCmd : (s.relabel base severity).rlCmd = s.rlCmd := rfl
@[simp] theorem State.relabel_ir : (s.relabel base severity).ir = s.ir := rfl
@[simp] theorem State.relabel_cms : (s.relabel base severity).cms = s.cms := rfl
@[simp] theorem State.relabel_sgs : (s.relabel base severity).sgs = s.sgs := rfl
@[simp] theorem State.relabel_nl : (s.relabel base severity).nl = s.nl := rfl
@[simp] theorem State.relabel_vr : (s.relabel base severity).vr = s.vr := rfl
@[simp] theorem State.relabel_ct : (s.relabel base severity).ct = s.ct := rfl
@[simp] theorem State.relabel_id : (s.relabel base severity).id = s.id := rfl
@[simp] theorem State.relabel_am : (s.relabel base severity).am = s.am := rfl
@[simp] theorem State.relabel_lg : (s.relabel base severity).lg = s.lg := rfl
@[simp] theorem State.relabel_rt : (s.relabel base severity).rt = s.rt := rfl
@[simp] theorem State.relabel_spt : (s.relabel base severity).spt = s.spt := rfl
@[simp] theorem State.relabel_gsh : (s.relabel base severity).gsh = s.gsh := rfl
@[simp] theorem State.relabel_gsl : (s.relabel base severity).gsl = s.gsl := rfl
@[simp] theorem State.relabel_rev : (s.relabel base severity).rev = s.rev := rfl
@[simp] theorem State.relabel_d : (s.relabel base severity).d = s.d := rfl
@[simp] theorem State.relabel_wm : (s.relabel base severity).wm = s.wm := rfl
@[simp] theorem State.relabel_ac : (s.relabel base severity).ac = s.ac := rfl
@[simp] theorem State.relabel_vram : (s.relabel base severity).vram = s.vram := rfl
@[simp] theorem State.relabel_halted : (s.relabel base severity).halted = s.halted := rfl
@[simp] theorem State.relabel_pending : (s.relabel base severity).pending = s.pending := rfl
@[simp] theorem State.relabel_result : (s.relabel base severity).result = s.result := rfl
@[simp] theorem State.relabel_snapshot : (s.relabel base severity).snapshot = s.snapshot := rfl
@[simp] theorem State.relabel_invertRead : (s.relabel base severity).invertRead = s.invertRead := rfl

@[simp] theorem State.relabel_writeLatch (l : LatchReg) : (s.relabel base severity).writeLatch l = s.writeLatch l := by
  cases l <;> rfl

theorem State.relabel_setWriteLatch (l : LatchReg) (o : Option Byte) :
    (s.relabel base severity).setWriteLatch l o = (s.setWriteLatch l o).relabel base severity := by
  cases h : s.params.latchSharing <;> cases l <;> simp [State.setWriteLatch, State.relabel, h]

end Sys2Proof.Machine
end

