-- ==== Sys2Proof/Laws/Vram.lean ====
section
/-! SUPPORT. Video RAM: reads after writes, and the canonical form. -/

namespace Sys2Proof.Machine

@[simp] theorem vramRead_nil (a : Nat) : vramRead [] a = vramUnlisted := rfl

theorem vramRead_cons (k : Nat) (w : Word) (m : Vram) (a : Nat) :
    vramRead ((k, w) :: m) a = if k = a then w else vramRead m a := rfl

theorem vramWfFrom_cons {lo k : Nat} {w : Word} {m : Vram} :
    vramWfFrom lo ((k, w) :: m) = true ↔
      lo ≤ k ∧ k < acRange ∧ w ≠ vramUnlisted ∧ vramWfFrom (k + 1) m = true := by
  simp [vramWfFrom, and_assoc]

theorem vramWfFrom_mono {lo lo' : Nat} {m : Vram} (hle : lo' ≤ lo) (h : vramWfFrom lo m = true) :
    vramWfFrom lo' m = true := by
  cases m with
  | nil => rfl
  | cons c m =>
    obtain ⟨k, w⟩ := c
    rw [vramWfFrom_cons] at h ⊢
    exact ⟨by omega, h.2⟩

/-- Nothing is listed below the index the form starts at. -/
theorem vramRead_below {m : Vram} : ∀ {lo a : Nat}, vramWfFrom lo m = true → a < lo → vramRead m a = vramUnlisted := by
  induction m with
  | nil => intros; rfl
  | cons c m ih =>
    obtain ⟨k, w⟩ := c
    intro lo a h ha
    rw [vramWfFrom_cons] at h
    rw [vramRead_cons, if_neg (by omega)]
    exact ih h.2.2.2 (by omega)

/-- A write leaves every other word as it was. -/
theorem vramRead_write_other {m : Vram} {a b : Nat} (v : Word) (hab : b ≠ a) :
    vramRead (vramWrite m a v) b = vramRead m b := by
  induction m with
  | nil =>
    unfold vramWrite
    split <;> simp [vramRead_cons, hab.symm]
  | cons c m ih =>
    obtain ⟨k, w⟩ := c
    unfold vramWrite
    split
    · simp [vramRead_cons, ih]
    · split
      · subst_vars
        split <;> simp [vramRead_cons, hab.symm]
      · split <;> simp [vramRead_cons, hab.symm]

theorem vramRead_write_from {m : Vram} {a : Nat} (v : Word) :
    ∀ {lo : Nat}, vramWfFrom lo m = true → vramRead (vramWrite m a v) a = v := by
  induction m with
  | nil =>
    intro lo _
    unfold vramWrite
    split <;> simp_all [vramRead_cons]
  | cons c m ih =>
    obtain ⟨k, w⟩ := c
    intro lo h
    rw [vramWfFrom_cons] at h
    unfold vramWrite
    split
    · rw [vramRead_cons, if_neg (by omega)]
      exact ih h.2.2.2
    · split
      · split
        · subst_vars
          exact vramRead_below h.2.2.2 (by omega)
        · simp [vramRead_cons]
      · split
        · rw [vramRead_cons, if_neg (by omega)]
          subst_vars
          exact vramRead_below h.2.2.2 (by omega)
        · simp [vramRead_cons]

/-- A write is read back. -/
theorem vramRead_write_same {m : Vram} (hm : m.wf = true) (a : Nat) (v : Word) :
    vramRead (vramWrite m a v) a = v :=
  vramRead_write_from v hm

theorem vramWrite_wfFrom {m : Vram} {a : Nat} (v : Word) (ha : a < acRange) :
    ∀ {lo : Nat}, lo ≤ a → vramWfFrom lo m = true → vramWfFrom lo (vramWrite m a v) = true := by
  induction m with
  | nil =>
    intro lo hlo _
    unfold vramWrite
    split
    · rfl
    · rw [vramWfFrom_cons]
      exact ⟨hlo, ha, ‹_›, rfl⟩
  | cons c m ih =>
    obtain ⟨k, w⟩ := c
    intro lo hlo h
    have hc := h
    rw [vramWfFrom_cons] at hc
    obtain ⟨h1, h2, h3, h4⟩ := hc
    unfold vramWrite
    split
    · rw [vramWfFrom_cons]
      exact ⟨h1, h2, h3, ih (by omega) h4⟩
    · split
      · subst_vars
        split
        · exact vramWfFrom_mono (by omega) h4
        · rw [vramWfFrom_cons]
          exact ⟨hlo, ha, ‹_›, h4⟩
      · split
        · exact h
        · rw [vramWfFrom_cons, vramWfFrom_cons]
          exact ⟨hlo, ha, ‹_›, by omega, h2, h3, h4⟩

/-- A write inside the store keeps the canonical form. -/
theorem vramWrite_wf {m : Vram} (hm : m.wf = true) (a : VramIndex) (v : Word) :
    (vramWrite m a.val v).wf = true :=
  vramWrite_wfFrom v a.isLt (Nat.zero_le _) hm

theorem vram_ext_from {m : Vram} :
    ∀ {n : Vram} {lo : Nat}, vramWfFrom lo m = true → vramWfFrom lo n = true →
      (∀ a, vramRead m a = vramRead n a) → m = n := by
  induction m with
  | nil =>
    intro n lo _ hn h
    cases n with
    | nil => rfl
    | cons c n =>
      obtain ⟨k, w⟩ := c
      rw [vramWfFrom_cons] at hn
      have := h k
      simp [vramRead_cons] at this
      exact absurd this.symm hn.2.2.1
  | cons c m ih =>
    obtain ⟨k, w⟩ := c
    intro n lo hm hn h
    have hm' := hm
    rw [vramWfFrom_cons] at hm
    cases n with
    | nil =>
      have := h k
      simp [vramRead_cons] at this
      exact absurd this hm.2.2.1
    | cons c' n =>
      obtain ⟨k', w'⟩ := c'
      have hn' := hn
      rw [vramWfFrom_cons] at hn
      have hk : k = k' := by
        rcases Nat.lt_trichotomy k k' with hlt | heq | hgt
        · have := h k
          rw [vramRead_cons, if_pos rfl, vramRead_cons, if_neg (by omega),
            vramRead_below hn.2.2.2 (by omega)] at this
          exact absurd this hm.2.2.1
        · exact heq
        · have := h k'
          rw [vramRead_cons, if_neg (by omega), vramRead_cons, if_pos rfl,
            vramRead_below hm.2.2.2 (by omega)] at this
          exact absurd this.symm hn.2.2.1
      subst hk
      have hw : w = w' := by
        have := h k
        simpa [vramRead_cons] using this
      subst hw
      have hmn : m = n := by
        refine ih hm.2.2.2 hn.2.2.2 fun a => ?_
        by_cases ha : a = k
        · subst ha
          rw [vramRead_below hm.2.2.2 (by omega), vramRead_below hn.2.2.2 (by omega)]
        · have := h a
          rwa [vramRead_cons, if_neg (Ne.symm ha), vramRead_cons, if_neg (Ne.symm ha)] at this
      rw [hmn]

/-- In the canonical form, equal contents are equal lists. -/
theorem vram_ext {m n : Vram} (hm : m.wf = true) (hn : n.wf = true)
    (h : ∀ a, vramRead m a = vramRead n a) : m = n :=
  vram_ext_from hm hn h

/-- Writing the word that is there changes nothing. -/
theorem vramWrite_read {m : Vram} (hm : m.wf = true) (a : VramIndex) :
    vramWrite m a.val (vramRead m a.val) = m := by
  refine vram_ext (vramWrite_wf hm a _) hm fun b => ?_
  by_cases hb : b = a.val
  · subst hb; exact vramRead_write_same hm _ _
  · exact vramRead_write_other _ hb

end Sys2Proof.Machine
end

