-- ==== Sys2Proof/Tests/Slice0.lean ====
section
/-! SUPPORT. Tests: expected values are the spec's (95_test_vectors.md, by section and row; encodings by rule).
Then, for each statement that has hypotheses, a state and operands that meet them. -/

namespace Sys2Proof.Tests

open Sys2Proof.Machine

/-! ## The machine the tests run on: the defaults of R7, with a value for each of the four free parameters -/

def testParams : Params :=
  { defaultParams with
    statusValue := 0x77#32, pixelOrder := Vector.ofFn id, lcdBase := 0x8000, severity := ⟨1, 2, 3⟩ }

/-- Right after reset, with those parameters. -/
def base : State := State.resetWith testParams defaultResetState []

/-- The same with the one write latch. -/
def sharedBase : State := State.resetWith { testParams with latchSharing := .shared } defaultResetState []

/-- What a test looks at in the next state; nothing if there is none. -/
def look {α : Type} (o : Host.Outcome State Fault Refusal) (f : State → α) : Option α :=
  match o with
  | .next t => some (f t)
  | .fault _ => none
  | .refused _ => none

/-! ## WellFormed: an access to one of the three registers is no `UNMAPPED` (R37, R38) -/

theorem test_wellFormed_refuses_status : (Instr.unmapped .read 0x0).wellFormed = false := by decide

theorem test_wellFormed_refuses_command : (Instr.unmapped (.write 5#32) 0x8).wellFormed = false := by decide

theorem test_wellFormed_refuses_data : (Instr.unmapped .read 0x10).wellFormed = false := by decide

theorem test_wellFormed_accepts_neighbours :
    (Instr.unmapped .read 0x1).wellFormed = true ∧ (Instr.unmapped .read 0x9).wellFormed = true ∧
    (Instr.unmapped (.write 0#32) 0x11).wellFormed = true := by decide

/-! ## Decoding: words written out from R59 and R62 to R64 -/

/-- Bus keys: `W` at bit 31, the offset below. -/
theorem test_decode_bus :
    decode (.bus 0x00000000#32 0#32) = .ok .rdStatus ∧
    decode (.bus 0x80000000#32 0x5A#32) = .ok (.wrStatus 0x5A#32) ∧
    decode (.bus 0x00000008#32 0#32) = .ok .rdCmd ∧
    decode (.bus 0x80000008#32 0x13#32) = .ok (.wrCmd 0x13#32) ∧
    decode (.bus 0x00000010#32 0#32) = .ok .rdData ∧
    decode (.bus 0x80000010#32 0xAB#32) = .ok (.wrData 0xAB#32) ∧
    decode (.bus 0x8000000C#32 0x12#32) = .ok (.unmapped (.write 0x12#32) 0x0C) ∧
    decode (.bus 0x00000100#32 0#32) = .ok (.unmapped .read 0x100) := by decide

/-- The Command word: `REG = 01`, value below. -/
theorem test_decode_command : decode (.logical 0x40000105#32) = .ok (.setIr 0x0105#16) := by decide

/-- Configuration commands: `REG = 10`, `IRX` at bits 28 to 24. -/
theorem test_decode_config :
    decode (.logical 0x8100031F#32) = .ok (.dataDriverOutput 0x031F#16) ∧
    decode (.logical 0x84000345#32) = .ok (.dataContrast 0x0345#16) ∧
    decode (.logical 0x8500001F#32) = .ok (.dataEntryMode 0x001F#16) ∧
    decode (.logical 0x86000005#32) = .ok (.dataRotation 0x0005#16) ∧
    decode (.logical 0x8700013F#32) = .ok (.dataDisplayControl 0x013F#16) ∧
    decode (.logical 0x8900FFFF#32) = .ok (.dataNop09 0xFFFF#16) ∧
    decode (.logical 0x8A001234#32) = .ok (.dataNop0A 0x1234#16) ∧
    decode (.logical 0x9000BEEF#32) = .ok (.dataWriteMask 0xBEEF#16) := by decide

theorem test_decode_vram :
    decode (.logical 0x91001234#32) = .ok (.dataRamAddress 0x1234#16) ∧
    decode (.logical 0x9200BEEF#32) = .ok (.dataWriteCgram 0xBEEF#16) := by decide

theorem test_decode_unimplemented :
    decode (.logical 0x82000001#32) = .ok (.dataR02 1#16) ∧
    decode (.logical 0x83000002#32) = .ok (.dataR03 2#16) ∧
    decode (.logical 0x88000003#32) = .ok (.dataR08 3#16) ∧
    decode (.logical 0x8B000004#32) = .ok (.dataHcursor 4#16) ∧
    decode (.logical 0x8C000005#32) = .ok (.dataR0C 5#16) ∧
    decode (.logical 0x8D000006#32) = .ok (.dataR0D 6#16) ∧
    decode (.logical 0x8E000007#32) = .ok (.dataR0E 7#16) ∧
    decode (.logical 0x80000008#32) = .ok (.dataR00 8#16) ∧
    decode (.logical 0x8F000009#32) = .ok (.dataR0F 9#16) := by decide

/-- `REG` values that do not occur, and a set bit 29, are rejected by name. -/
theorem test_decode_rejects :
    decode (.logical 0x00000000#32) = .error (.noSuchRegister 0b00#2) ∧
    decode (.logical 0xC0000000#32) = .error (.noSuchRegister 0b11#2) ∧
    decode (.logical 0xA5000000#32) = .error .reservedBit29 := by decide

/-- A table word gives its row's instruction, and the next step runs it: `DATA_ENTRY_MODE` of 0x000C is rejected
(2.3). -/
theorem test_withFetchWord_runs_the_word :
    decodeTableWord 32 0x8500000C = some (.dataEntryMode 0x000C#16) ∧
    look (step (base.withFetchWord 32 0x8500000C)) (fun t => (t.result, t.wlData, t.pending)) =
      some (some (.contractViolation (.amInvalid 0x000C#16)), none, []) := by decide

theorem test_encode_listing :
    encode (.unmapped .read 0x0C) = some (.bus 0x0000000C#32 0#32) ∧ encode (.unmapped .read 0x80000000) = none ∧
    encode (.dataHcursor 0x1234#16) = some (.logical 0x8B001234#32) := by decide

/-! ## One step of each instruction -/

/-- 2.1 B1 -/
theorem test_rdStatus : look (exec .rdStatus base) (·.result) = some (some (.okValue 0x77#32)) := by decide

/-- 2.1 B3 -/
theorem test_wrStatus :
    look (exec (.wrStatus 0x5A#32) { base with wlCmd := some 0x00#8 }) (fun t => (t.result, t.wlCmd)) =
      some (some (.stubWrite .statusWrite), some 0x00#8) := by decide

/-- 2.1 B5: the latched byte is stale. -/
theorem test_rdCmd_stale :
    look (exec .rdCmd { base with rlCmd := some 0x45#8, ct := 0x12#7 }) (fun t => (t.result, t.rlCmd)) =
      some (some (.okValue 0x45#32), none) := by decide

/-- 2.1 B6, the first read -/
theorem test_rdCmd_contrastImage :
    look (exec .rdCmd
        { base with params := { testParams with cmdReadSource := .contrastImage }, ct := 0x7F#7, vr := 5#3 })
      (fun t => (t.result, t.rlCmd)) = some (some (.okValue 0x05#32), some 0x7F#8) := by decide

/-- 2.1 B7 -/
theorem test_wrCmd_first :
    look (exec (.wrCmd 0xFFFFFF00#32) base) (fun t => (t.result, t.wlCmd)) = some (some .ok, some 0x00#8) := by
  decide

/-- 2.1 B9 -/
theorem test_wrCmd_second :
    look (exec (.wrCmd 0x00#32) { base with wlCmd := some 0x01#8, ir := 0x07#16 }) (fun t => (t.result, t.wlCmd, t.ir)) =
      some (some (.contractViolation (.irOutOfRange 0x0100#16)), none, 0x07#16) := by decide

/-- 2.1 B13 -/
theorem test_rdData :
    look (exec .rdData base) (fun t => (t.result, t.halted)) = some (some (.fatalError .dataRead), true) := by decide

/-- 2.1 B11 -/
theorem test_wrData_second :
    look (exec (.wrData 0xCD#32) { base with wlData := some 0xAB#8, ir := 0x10#16 }) (fun t => (t.wm, t.wlData)) =
      some (0xABCD#16, none) := by decide

/-- Section 4, `Shared`, line 6: the Command byte is paired with the Data byte. -/
theorem test_wrData_shared :
    look (exec (.wrData 0x07#32) { sharedBase with wl := some 0x00#8, ir := 0x10#16 }) (fun t => (t.wm, t.wl)) =
      some (0x0007#16, none) := by decide

/-- 2.1 B15 -/
theorem test_unmapped :
    look (exec (.unmapped (.write 0x12#32) 0x0C) { base with wlData := some 0x00#8 }) (fun t => (t.result, t.wlData)) =
      some (some (.unmapped (.unmapped 0x0C)), some 0x00#8) := by decide

/-- 2.2 -/
theorem test_setIr_largest : look (exec (.setIr 0x0012#16) base) (fun t => (t.result, t.ir)) = some (some .ok, 0x12#16) := by
  decide

/-- 2.2 -/
theorem test_setIr_rejected :
    look (exec (.setIr 0x0013#16) { base with ir := 0x07#16 }) (fun t => (t.result, t.ir)) =
      some (some (.contractViolation (.irOutOfRange 0x0013#16)), 0x07#16) := by decide

/-- 2.3 -/
theorem test_driverOutput :
    look (exec (.dataDriverOutput 0x0215#16) base) (fun t => (t.cms, t.sgs, t.nl)) = some (1#1, 0#1, 0x15#5) := by decide

/-- 2.3: the bits set are outside the fields. -/
theorem test_driverOutput_ignored_bits :
    look (exec (.dataDriverOutput 0xFCE0#16) base) (fun t => (t.cms, t.sgs, t.nl)) = some (0#1, 0#1, 0#5) := by decide

/-- 2.3 -/
theorem test_contrast : look (exec (.dataContrast 0x0345#16) base) (fun t => (t.vr, t.ct)) = some (3#3, 0x45#7) := by
  decide

/-- 2.3: bit 7 is outside the fields. -/
theorem test_contrast_ignored_bits :
    look (exec (.dataContrast 0x00FF#16) base) (fun t => (t.vr, t.ct)) = some (0#3, 0x7F#7) := by decide

/-- 2.3: accepted, and fails only at the next video-RAM write. -/
theorem test_entryMode_fatal_mode_accepted :
    look (exec (.dataEntryMode 0x0004#16) base) (fun t => (t.result, t.id, t.am, t.lg)) =
      some (some .ok, 0#1, 0b01#2, 0b00#2) := by decide

/-- Section 1, S3 -/
theorem test_entryMode_rejected :
    look (exec (.dataEntryMode 0x001F#16) base) (fun t => (t.result, t.id, t.am, t.lg)) =
      some (some (.contractViolation (.amInvalid 0x001F#16)), 0#1, 0b00#2, 0b00#2) := by decide

/-- 2.3 -/
theorem test_rotation : look (exec (.dataRotation 0x0005#16) base) (·.rt) = some 5#3 := by decide

/-- 2.3 -/
theorem test_rotation_ignored_bits : look (exec (.dataRotation 0xFFF8#16) base) (·.rt) = some 0#3 := by decide

/-- 2.3 -/
theorem test_displayControl_invert :
    look (exec (.dataDisplayControl 0x0002#16) base) (fun t => (t.spt, t.gsh, t.gsl, t.rev, t.d)) =
      some (0#1, 0#2, 0#2, 1#1, 0#1) := by decide

/-- 2.3 -/
theorem test_displayControl_ignored_bits :
    look (exec (.dataDisplayControl 0xFEC0#16) base) (fun t => (t.spt, t.gsh, t.gsl, t.rev, t.d)) =
      some (0#1, 0#2, 0#2, 0#1, 0#1) := by decide

/-- 2.3 -/
theorem test_nop09 : look (exec (.dataNop09 0xFFFF#16) base) id = some { base with result := some .ok } := by decide

/-- 2.3 -/
theorem test_nop0A : look (exec (.dataNop0A 0x1234#16) base) id = some { base with result := some .ok } := by decide

/-- Section 1, S2 -/
theorem test_writeMask : look (exec (.dataWriteMask 0xBEEF#16) base) (·.wm) = some 0xBEEF#16 := by decide

/-- 2.4 -/
theorem test_ramAddress : look (exec (.dataRamAddress 0x1234#16) base) (·.ac.val) = some 0x01B4 := by decide

/-- 2.4 -/
theorem test_ramAddress_modulus : look (exec (.dataRamAddress 0x1080#16) base) (·.ac.val) = some 0x0000 := by decide

/-- 2.6, the row with old word 0x0F0F; `ID = 1` at 0x0014 goes to 0x0020 (2.7). -/
theorem test_writeCgram :
    look (exec (.dataWriteCgram 0xC3C3#16)
        { base with vram := [(0x14, 0x0F0F#16)], ac := ⟨0x14, by decide⟩, rt := 2#3, lg := 0b10#2, wm := 0x8001#16,
                    id := 1#1 })
      (fun t => (t.vram, t.ac.val, t.result)) = some ([(0x14, 0x0C0D#16)], 0x20, some .ok) := by decide

/-- 2.8, `AM = 0b10` -/
theorem test_writeCgram_fatal :
    look (exec (.dataWriteCgram 0xBEEF#16) { base with ac := ⟨0x5, by decide⟩, am := 0b10#2 })
      (fun t => (vramRead t.vram 0x5, t.ac.val, t.halted, t.result)) =
      some (0xBEEF#16, 0x5, true, some (.fatalError (.amUnimplemented 0b10#2))) := by decide

/-- 2.9 -/
theorem test_unimplemented_reports_the_index :
    look (exec (.dataR02 0#16) { base with ir := 0x02#16 }) (·.result) =
        some (some (.fatalError (.unimplemented 0x02#16))) ∧
    look (exec (.dataR03 0#16) { base with ir := 0x03#16 }) (·.result) =
        some (some (.fatalError (.unimplemented 0x03#16))) ∧
    look (exec (.dataR08 0#16) { base with ir := 0x08#16 }) (·.result) =
        some (some (.fatalError (.unimplemented 0x08#16))) ∧
    look (exec (.dataHcursor 0#16) { base with ir := 0x0B#16 }) (·.result) =
        some (some (.fatalError (.unimplemented 0x0B#16))) := by decide

/-- 2.9 -/
theorem test_unimplemented_halts :
    look (exec (.dataR0C 0#16) base) (·.halted) = some true ∧ look (exec (.dataR0D 0#16) base) (·.halted) = some true ∧
    look (exec (.dataR0E 0#16) base) (·.halted) = some true := by decide

/-- 2.9, P5 -/
theorem test_undefinedDispatch :
    look (exec (.dataR00 0x1234#16) base) (fun t => (t.result, t.halted)) =
        some (some (.fatalError (.undefinedDispatch 0x00#16)), true) ∧
    look (exec (.dataR0F 0#16) { base with ir := 0x0F#16 }) (·.result) =
        some (some (.fatalError (.undefinedDispatch 0x0F#16))) := by decide

/-- 2.7: past the last valid word, before the first, and from an invalid column. -/
theorem test_acNext :
    acNext 0x1074 .increment = 0x0000 ∧ acNext 0x0000 .decrement = 0x1074 ∧
    acNext 0x087F .increment = 0x0880 ∧ acNext 0x087F .decrement = 0x0874 := by decide

/-- 2.5 -/
theorem test_rotl16 : rotl16 0x1234#16 (2 * 7) = 0x048D#16 ∧ rotl16 0x8001#16 (2 * 1) = 0x0006#16 := by decide

/-- 2.10, and Section 1, S8: a word of zeros is lightest with `REV = 0`. -/
theorem test_wordEntries : wordEntries testParams 0#1 0x0000#16 = [3, 3, 3, 3, 3, 3, 3, 3] := by decide

/-- A frame of nothing but zero words has 132 rows of 21 words (R46). -/
theorem test_frameEntries_row : (visibleWords [(0x20, 0x1111#16)] 1).length = 21 ∧
    (visibleWords [(0x20, 0x1111#16)] 1).head? = some 0x1111#16 := by decide

/-- 2.1 B17 -/
theorem test_probe : probe 0x8 = .register "Command" ∧ probe 0x4 = .unmapped := by decide

/-- R10, R36: a stub result carries its register's severity, a success none; offset 0x10 lies 0x10 above the base. -/
theorem test_severity_and_base :
    (Result.stubWrite .statusWrite).severity testParams .status = some 1 ∧ Result.ok.severity testParams .data = none ∧
    hostAddress testParams 0x10 = 0x8010 := by decide

/-- Section 3: the listing of a machine line. -/
theorem test_listing : (expandCmd 0x0012#16).map AsmLine.listing =
    [(some 0x80000008#32, 0x00#32), (some 0x80000008#32, 0x12#32)] := by decide

/-! ## For each statement with hypotheses, states and operands that meet them, clause by clause -/

/-- An outcome of one transaction that the witnesses name, by what it computes to. -/
def nextState (o : Host.Outcome State Fault Refusal) : State := (look o id).getD base

/-- Index Register values at the edges of R19's range, with a latched Data byte. -/
def latchedData (n : Word) : State := { base with wlData := some 0xBE#8, ir := n }

/-- One Data byte latched in the one latch. -/
def latchedShared (n : Word) : State := { sharedBase with wl := some 0xBE#8, ir := n }

/-- Ready for a video-RAM write at the last valid word, with a word there. -/
def writing : State :=
  { base with vram := [(0x1074, 0x00FF#16)], ac := ⟨0x1074, by decide⟩, id := 1#1, wm := 0x0F00#16, rt := 7#3, lg := 0b11#2 }

/-- The same in an advance mode that is not implemented. -/
def writingFatal : State := { writing with am := 0b10#2 }

theorem witness_StatusReadReturnsStatusValue : base.halted = false := by decide

theorem witness_StatusWriteFollowsPolicy :
    (base.halted = false ∧ base.params.statusWritePolicy = .stubNoEffect) ∧
    let s := { base with params := { testParams with statusWritePolicy := .fatal } }
    s.halted = false ∧ s.params.statusWritePolicy = .fatal := by decide

theorem witness_CommandReadReturnsHighByteThenLatchedLow :
    base.halted = false ∧ base.rlCmd = none ∧ base.params.cmdReadSource = .ct ∧
    { base with rlCmd := some 0x45#8 }.rlCmd = some 0x45#8 ∧
    look (exec (.wrCmd 0x00#32) base) (·.rlCmd) = some base.rlCmd := by decide

theorem witness_CommandReadPairReturnsTheContrastField :
    let s := { base with ct := 0x7F#7, vr := 5#3, pending := busEvents (Pseudo.expand .rd16Cmd) ++ [Event.readInvert] }
    let c := { s with params := { testParams with cmdReadSource := .contrastImage } }
    s.halted = false ∧ s.rlCmd = none ∧ s.params.cmdReadSource = .ct ∧
    s.pending = busEvents (Pseudo.expand .rd16Cmd) ++ [Event.readInvert] ∧
    c.halted = false ∧ c.rlCmd = none ∧ c.params.cmdReadSource = .contrastImage ∧
    c.params.layout.vr = 8 ∧ c.params.layout.ct = 0 ∧
    { c with params := { c.params with layout := { defaultLayout with vr := 2, ct := 5 } } }.params.layout.vr ≠ 8 ∧
    c.pending = busEvents (Pseudo.expand .rd16Cmd) ++ [Event.readInvert] := by decide

theorem witness_CommandWriteLatchesThenSetsIndex :
    base.halted = false ∧ base.params.latchSharing = .perRegister ∧ base.wlCmd = none ∧
    { base with wlCmd := some 0x00#8 }.wlCmd = some 0x00#8 ∧
    { base with wlCmd := some 0x01#8 }.wlCmd = some 0x01#8 ∧ (0x01#8 : Byte) ≠ 0#8 := by decide

theorem witness_DataWriteLatchesThenRunsSelectedCommand :
    base.halted = false ∧ base.params.latchSharing = .perRegister ∧ base.wlData = none ∧
    (latchedData 0x00#16).wlData = some 0xBE#8 ∧ (latchedData 0x00#16).ir ≤ 0x12#16 ∧
    (latchedData 0x12#16).wlData = some 0xBE#8 ∧ (latchedData 0x12#16).ir ≤ 0x12#16 := by decide

theorem witness_SharedLatchPairsAcrossRegisters :
    sharedBase.halted = false ∧ sharedBase.params.latchSharing = .shared ∧ sharedBase.wl = none ∧
    (latchedShared 0x12#16).halted = false ∧ (latchedShared 0x12#16).params.latchSharing = .shared ∧
    (latchedShared 0x12#16).wl = some 0xBE#8 ∧ (latchedShared 0x12#16).ir ≤ 0x12#16 := by decide

theorem witness_DataReadHaltsTheBlock : base.halted = false := by decide

theorem witness_UnmappedAccessChangesNothing :
    base.halted = false ∧
    ∀ offset ∈ [0x1, 0x7, 0x9, 0xF, 0x11, 2 ^ 31, 2 ^ 31 + 8], offset ≠ 0x0 ∧ offset ≠ 0x8 ∧ offset ≠ 0x10 := by decide

theorem witness_UpperWriteBitsAreIgnored :
    (0xFFFFFF05#32 : BusWord).extractLsb' 0 8 = (0x00000005#32 : BusWord).extractLsb' 0 8 ∧
    (0xFFFFFF05#32 : BusWord) ≠ 0x00000005#32 := by decide

theorem witness_SetIrAcceptsLegalIndexesOnly :
    base.halted = false ∧ (0x0012#16 : Word) ≤ 0x12#16 ∧ 0x12#16 < (0x0013#16 : Word) ∧ 0x12#16 < (0xFFFF#16 : Word) := by
  decide

/-- Not halted, at the default layout, and at another. -/
def otherLayout : State :=
  { base with params := { testParams with layout := { defaultLayout with ct := 9, vr := 0, rt := 13 } } }

theorem witness_DriverOutputStoresItsFields :
    base.halted = false ∧ base.params.layout = defaultLayout ∧ otherLayout.halted = false := by decide

theorem witness_ContrastStoresItsFields :
    base.halted = false ∧ base.params.layout = defaultLayout ∧ otherLayout.halted = false := by decide

theorem witness_RotationStoresItsField :
    base.halted = false ∧ base.params.layout = defaultLayout ∧ otherLayout.halted = false := by decide

theorem witness_DisplayControlStoresItsFields :
    base.halted = false ∧ base.params.layout = defaultLayout ∧ otherLayout.halted = false := by decide

theorem witness_EntryModeStoresItsFields :
    base.halted = false ∧ base.params.layout = defaultLayout ∧
    (0x0004#16 : Word).extractLsb' base.params.layout.am 2 ≠ 0b11#2 ∧
    (0x0018#16 : Word).extractLsb' base.params.layout.am 2 ≠ 0b11#2 ∧ (0x0018#16 : Word).extractLsb' 2 2 ≠ 0b11#2 := by
  decide

theorem witness_EntryModeRejectsInvalidAdvanceMode :
    base.halted = false ∧ (0x000C#16 : Word).extractLsb' base.params.layout.am 2 = 0b11#2 := by decide

theorem witness_NoOpsChangeNothing : base.halted = false := by decide

theorem witness_WriteMaskStoresTheWordAndLasts :
    base.halted = false ∧
    look (exec (.dataWriteMask 0xBEEF#16) base) (fun t => decide (t.wm ≠ base.wm)) = some true ∧
    look (exec (.wrData 0xEF#32) (latchedData 0x10#16)) (fun t => decide (t.wm ≠ (latchedData 0x10#16).wm)) =
      some true := by decide

theorem witness_RamAddressSetsAddressCounterModulo : base.halted = false := by decide

theorem witness_VideoRamWriteStoresAndAdvances :
    writing.halted = false ∧ writing.vram.wf = true ∧ writing.am = 0b00#2 ∧ writing.id = writing.params.idIncrement ∧
    { writing with id := 0#1 }.id ≠ { writing with id := 0#1 }.params.idIncrement := by decide

theorem witness_VideoRamWriteBitByBit :
    writing.vram.wf = true ∧ 15 < 16 ∧
    exec (.dataWriteCgram 0x1234#16) writing = .next (nextState (exec (.dataWriteCgram 0x1234#16) writing)) ∧
    writingFatal.vram.wf = true ∧
    exec (.dataWriteCgram 0x1234#16) writingFatal = .next (nextState (exec (.dataWriteCgram 0x1234#16) writingFatal)) ∧
    writing.wm.getLsbD 8 = true ∧ writing.wm.getLsbD 15 = false :=
  ⟨by decide, by decide, rfl, by decide, rfl, by decide, by decide⟩

theorem witness_FullMaskLeavesVideoRamUnchanged :
    let s := { writing with wm := 0xFFFF#16 }
    s.halted = false ∧ s.vram.wf = true ∧ s.am = 0b00#2 ∧ s.wm = 0xFFFF#16 := by decide

theorem witness_UnimplementedAdvanceModeHaltsAfterTheStore :
    writingFatal.halted = false ∧ writingFatal.vram.wf = true ∧ writingFatal.am ≠ 0b00#2 ∧
    { writing with am := 0b01#2 }.am ≠ 0b00#2 := by decide

/-- Row 131 and the columns where the clauses meet. -/
theorem witness_AddressCounterStepInEveryRow :
    131 < 132 ∧ 0x13 < 0x14 ∧ 0 < 0x01 ∧ 0x01 ≤ 0x14 ∧ 0 < 0x14 ∧ 0x14 ≤ 0x14 := by decide

theorem witness_AddressCounterStepFromInvalidColumn :
    131 < 132 ∧ 0x15 ≤ 0x15 ∧ 0x15 ≤ 0x1F ∧ 0x15 ≤ 0x1F ∧ 0x1F ≤ 0x1F := by decide

theorem witness_AddressCounterStepsUndoEachOther :
    0x1074 < 0x1080 ∧ 0x1074 % 0x20 ≤ 0x14 ∧ 0x0000 < 0x1080 ∧ 0x0000 % 0x20 ≤ 0x14 := by decide

theorem witness_AddressCounterVisitsEveryValidWord :
    0x1074 < 0x1080 ∧ 0x1074 % 0x20 ≤ 0x14 ∧ 2772 % 2772 = 0 ∧ 2771 % 2772 ≠ 0 := by decide

/-- P1's three words, from the last word of the store but one. -/
theorem witness_StreamedWordsFillTheValidWords :
    let s := { base with id := 1#1, ac := ⟨0x1073, by decide⟩ }
    [0x1111#16, 0x2222#16, 0x3333#16] ≠ ([] : List Word) ∧ [0x1111#16, 0x2222#16, 0x3333#16].length ≤ 2772 ∧
    s.halted = false ∧ s.vram.wf = true ∧ s.am = 0b00#2 ∧ s.id = s.params.idIncrement ∧ s.lg = 0b00#2 ∧
    s.wm = 0x0000#16 ∧ s.ac.val % 0x20 ≤ 0x14 := by decide

theorem witness_RotationMovesWholePixels : (6 : Fin 8).val = ((7 : Fin 8).val + (7#3 : BitVec 3).toNat) % 8 := by decide

theorem witness_UnimplementedCommandsHaltTheBlock :
    base.halted = false ∧ Instr.dataHcursor 0xFFFF#16 ∈
      [Instr.dataR02 0xFFFF#16, .dataR03 0xFFFF#16, .dataR08 0xFFFF#16, .dataHcursor 0xFFFF#16, .dataR0C 0xFFFF#16,
        .dataR0D 0xFFFF#16, .dataR0E 0xFFFF#16] := by decide

/-- The clause about the command's own number: the Index Register selects it, and a Data byte is latched. -/
theorem witness_UnimplementedCommandsHaltTheBlock_number :
    0x02#16 ∈ [0x02#16, 0x03#16, 0x08#16, 0x0B#16, 0x0C#16, 0x0D#16, 0x0E#16] ∧
    (latchedData 0x02#16).halted = false ∧ (latchedData 0x02#16).ir = 0x02#16 ∧
    (latchedData 0x02#16).writeLatch .data ≠ none ∧
    0x0E#16 ∈ [0x02#16, 0x03#16, 0x08#16, 0x0B#16, 0x0C#16, 0x0D#16, 0x0E#16] ∧
    (latchedShared 0x0E#16).halted = false ∧ (latchedShared 0x0E#16).ir = 0x0E#16 ∧
    (latchedShared 0x0E#16).writeLatch .data ≠ none := by decide

theorem witness_UndefinedDispatchHaltsTheBlock :
    base.halted = false ∧ (latchedData 0x13#16).halted = false ∧ (latchedData 0x13#16).writeLatch .data ≠ none ∧
    0x12#16 < (latchedData 0x13#16).ir := by decide

theorem witness_HaltedBlockTakesNoTransaction :
    let s := { base with halted := true, pending := [.bus ⟨.read, 0x0⟩] }
    let r := { base with halted := true, pending := [.snapshot] }
    s.halted = true ∧ s.pending = .bus ⟨.read, 0x0⟩ :: [] ∧ r.halted = true ∧ r.pending = .snapshot :: [] := by decide

theorem witness_RunningBlockTakesEveryTransaction : base.halted = false := by decide

/-- A rejected index with nothing to drain, and a rejected pair in each register that drains its latch. -/
theorem witness_ContractViolationChangesOnlyTheDrainedLatch :
    look (exec (.setIr 0x0013#16) base) (·.result) = some (some (.contractViolation (.irOutOfRange 0x0013#16))) ∧
    look (exec (.wrData 0x0C#32) { latchedData 0x05#16 with wlData := some 0x00#8 }) (fun t => (t.result, t.wlData)) =
      some (some (.contractViolation (.amInvalid 0x000C#16)), none) ∧
    look (exec (.wrCmd 0x13#32) { sharedBase with wl := some 0x00#8 }) (fun t => (t.result, t.wl)) =
      some (some (.contractViolation (.irOutOfRange 0x0013#16)), none) := by decide

/-- A result of each kind that is not `Ok`, the fatal video-RAM write among them. -/
theorem witness_OnlyOkChangesRegisters :
    look (exec (.wrStatus 0#32) base) (fun t => t.result.map (·.isOk)) = some (some false) ∧
    look (exec (.unmapped .read 0x4) base) (fun t => t.result.map (·.isOk)) = some (some false) ∧
    look (exec (.setIr 0x13#16) base) (fun t => t.result.map (·.isOk)) = some (some false) ∧
    look (exec (.dataR02 0#16) base) (fun t => t.result.map (·.isOk)) = some (some false) ∧
    look (exec (.dataWriteCgram 0xFFFF#16) writingFatal) (fun t => (t.result.map (·.isOk), decide (t.vram ≠ writingFatal.vram))) =
      some (some false, true) := by decide

theorem witness_AddressCounterMovesOnlyByItsCommands :
    look (exec (.dataRamAddress 5#16) base) (fun t => decide (t.ac ≠ base.ac)) = some true ∧
    look (exec (.dataWriteCgram 5#16) base) (fun t => decide (t.ac ≠ base.ac)) = some true ∧
    look (exec (.wrData 5#32) (latchedData 0x11#16)) (fun t => decide (t.ac ≠ base.ac)) = some true ∧
    look (exec (.wrData 5#32) (latchedData 0x12#16)) (fun t => decide (t.ac ≠ base.ac)) = some true := by decide

theorem witness_VideoRamChangesOnlyAtTheAddressCounter :
    look (exec (.dataWriteCgram 5#16) base) (fun t => decide (t.vram ≠ base.vram)) = some true ∧
    look (exec (.wrData 5#32) (latchedData 0x12#16)) (fun t => decide (t.vram ≠ base.vram)) = some true ∧
    1 ≠ base.ac.val := by decide

theorem witness_IndexRegisterChangesOnlyBySetIr :
    look (exec (.setIr 5#16) base) (fun t => decide (t.ir ≠ base.ir)) = some true ∧
    look (exec (.wrCmd 5#32) { base with wlCmd := some 0x00#8 }) (fun t => decide (t.ir ≠ base.ir)) = some true := by decide

theorem witness_ReadLatchAndWriteLatchesAreIndependent :
    exec (.dataNop09 0#16) base = .next (nextState (exec (.dataNop09 0#16) base)) ∧ Instr.dataNop09 0#16 ≠ .rdCmd ∧
    (∀ value, Instr.dataNop09 0#16 ≠ .wrCmd value ∧ Instr.dataNop09 0#16 ≠ .wrData value) ∧
    exec .rdCmd base = .next (nextState (exec .rdCmd base)) ∧
    ∀ value, Instr.rdCmd ≠ .wrCmd value ∧ Instr.rdCmd ≠ .wrData value :=
  ⟨rfl, by decide, fun _ => ⟨nofun, nofun⟩, rfl, fun _ => ⟨nofun, nofun⟩⟩

theorem witness_CompletingByteEmptiesItsLatch :
    let s := { base with wlCmd := some 0x13#8, wlData := some 0x0C#8 }
    s.halted = false ∧ s.writeLatch .command ≠ none ∧ s.writeLatch .data ≠ none ∧ s.params.latchSharing = .perRegister ∧
    (latchedShared 0#16).halted = false ∧ (latchedShared 0#16).writeLatch .command ≠ none ∧
    (latchedShared 0#16).writeLatch .data ≠ none := by decide

theorem witness_BytePairEqualsLogicalWrite :
    let s := { base with pending := busEvents (expandCmd 0x0012#16) ++ [Event.snapshot] }
    let d := { sharedBase with ir := 0x12#16, pending := busEvents (expandData 0xBEEF#16) ++ [Event.snapshot] }
    s.halted = false ∧ s.writeLatch .command = none ∧ s.pending = busEvents (expandCmd 0x0012#16) ++ [Event.snapshot] ∧
    d.halted = false ∧ d.writeLatch .data = none ∧ d.ir ≤ 0x12#16 ∧
    d.pending = busEvents (expandData 0xBEEF#16) ++ [Event.snapshot] ∧
    let s' := { sharedBase with pending := busEvents (expandCmd 0x0012#16) ++ [Event.snapshot] }
    let d' := { base with ir := 0x12#16, pending := busEvents (expandData 0xBEEF#16) ++ [Event.snapshot] }
    s'.halted = false ∧ s'.writeLatch .command = none ∧
    s'.pending = busEvents (expandCmd 0x0012#16) ++ [Event.snapshot] ∧
    d'.halted = false ∧ d'.writeLatch .data = none ∧ d'.ir ≤ 0x12#16 ∧
    d'.pending = busEvents (expandData 0xBEEF#16) ++ [Event.snapshot] := by decide

/-- A result of each kind but `StubRead`, with the causes of R141. -/
theorem witness_ResultsAndCausesOfEachKind :
    look (exec (.unmapped .read 0x4) base) (fun t => t.result.map (·.code)) = some (some 1) ∧
    look (exec (.wrStatus 0#32) base) (fun t => t.result.map (·.code)) = some (some 3) ∧
    look (exec (.setIr 0x13#16) base) (·.result) = some (some (.contractViolation (.irOutOfRange 0x13#16))) ∧
    look (exec (.dataEntryMode 0xC#16) base) (·.result) = some (some (.contractViolation (.amInvalid 0xC#16))) ∧
    look (exec .rdData base) (·.result) = some (some (.fatalError .dataRead)) ∧
    look (exec (.dataWriteCgram 0#16) writingFatal) (·.result) = some (some (.fatalError (.amUnimplemented 0b10#2))) := by
  decide

theorem witness_DisplayPortReadsBetweenTransactions :
    { base with pending := [.snapshot] }.pending = Event.snapshot :: [] ∧
    { base with halted := true, pending := [.readInvert] }.pending = Event.readInvert :: [] := by decide

theorem witness_StepRunsTheDecodedTransaction :
    { base with pending := [.bus ⟨.write 0x12#32, 0x8⟩, .snapshot] }.pending =
      .bus ⟨.write 0x12#32, 0x8⟩ :: [.snapshot] := by decide

theorem witness_StepRunsThePlacedCode :
    base.halted = false ∧
    (Instr.wrStatus 5#32).wellFormed = true ∧ encode (.wrStatus 5#32) = some (.bus 0x80000000#32 5#32) ∧
    (Instr.setIr 5#16).wellFormed = true ∧ encode (.setIr 5#16) = some (.logical 0x40000005#32) ∧
    (Instr.dataWriteCgram 5#16).wellFormed = true ∧ encode (.dataWriteCgram 5#16) = some (.logical 0x92000005#32) := by
  decide

theorem witness_DecodeInvertsEncode :
    (Instr.unmapped (.write 7#32) (2 ^ 31 - 1)).wellFormed = true ∧
    encode (.unmapped (.write 7#32) (2 ^ 31 - 1)) = some (.bus 0xFFFFFFFF#32 7#32) ∧
    (Instr.unmapped .read (2 ^ 31)).wellFormed = true ∧ encode (.unmapped .read (2 ^ 31)) = none := by decide

theorem witness_EncodeInvertsDecode :
    (Code.logical 0x9200FFFF#32).canonical = true ∧ decode (.logical 0x9200FFFF#32) = .ok (.dataWriteCgram 0xFFFF#16) ∧
    (Code.bus 0x00000018#32 0#32).canonical = true ∧ decode (.bus 0x00000018#32 0#32) = .ok (.unmapped .read 0x18) := by
  decide

theorem witness_DecodingIsTotalAndKeepsToTheTable :
    busKey ⟨.write 1#32, 0x8⟩ = some 0x80000008#32 ∧
    (Code.logical 0x8F000000#32).canonical = true ∧ decode (.logical 0x8F000000#32) = .ok (.dataR0F 0#16) := by decide

/-- A state with `IR`, `AM` and the latches away from their reset values. -/
theorem witness_EveryStepKeepsTheInvariant :
    let s := { writing with ir := 0x12#16, wlData := some 0xBE#8, pending := [.bus ⟨.write 0xEF#32, 0x10⟩] }
    (s.ir ≤ 0x12#16 ∧ s.am ≠ 0b11#2 ∧ s.vram.wf = true ∧ s.wl = none ∧ s.HaltRecorded) ∧
    look (step s) (fun t => (t.result, t.ac.val)) = some (some .ok, 0x0000) := by decide

theorem witness_EveryLegalConstructionHasTheInvariant :
    { defaultResetState with ir := 0x12#16, am := 0b10#2 }.Legal ∧ Vram.wf [(0x0, 1#16), (0x107F, 0xFFFF#16)] = true := by
  decide

theorem witness_ParametersNeverChange :
    look (step { base with pending := [.bus ⟨.write 0x12#32, 0x8⟩] }) (·.params) = some base.params := by decide

end Sys2Proof.Tests
end

section
/-! PROOF of O37 (R29): only a transaction that returns `Ok` changes a register; video RAM changes under another
result in the fatal video-RAM write alone. -/

namespace Sys2Proof.Machine

variable {s t : State} {r : Result}

/-- What a transaction that returns `r`, not `Ok`, keeps (R29): everything but the write latches, video RAM, HALTED and
the recorded result, and video RAM too unless `r` is that of an advance mode that is not implemented. -/
structure NotOkFrame (s t : State) (r : Result) : Prop where
  registers : t = { s with
    wlCmd := t.wlCmd, wlData := t.wlData, wl := t.wl
    vram := t.vram, halted := t.halted, result := t.result }
  vram : t.vram = s.vram ∨ ∃ am, r = .fatalError (.amUnimplemented am)

theorem NotOkFrame.of_reply (r' : Result) : NotOkFrame s (s.reply r') r := ⟨rfl, .inl rfl⟩

theorem NotOkFrame.of_raiseFatal (c : Cause) : NotOkFrame s (s.raiseFatal c) r := ⟨rfl, .inl rfl⟩

/-- The latch drained before a completed write runs is one of the write latches, which R29 leaves free. -/
theorem NotOkFrame.of_setWriteLatch {l : LatchReg} {o : Option Byte} (f : NotOkFrame (s.setWriteLatch l o) t r) :
    NotOkFrame s t r where
  registers := f.registers.trans (by unfold State.setWriteLatch; split <;> rfl)
  vram := by simpa using f.vram

/-- A logical write that does not return `Ok` rejects its value or halts the block. -/
theorem LogicalEffect.notOkFrame {i : Instr} (e : LogicalEffect s i t) (ht : t.result = some r)
    (hr : r.isOk = false) : NotOkFrame s t r := by
  cases e
  case setIrRejected => exact .of_reply _
  case entryModeRejected => exact .of_reply _
  case unimplemented => exact .of_raiseFatal _
  case undefined => exact .of_raiseFatal _
  case writeCgramFatal => exact ⟨rfl, .inr ⟨s.am, (Option.some.inj ht).symm⟩⟩
  all_goals
    cases ht
    cases hr

/-- A transaction outside the byte-latched writes replies, halts, or moves the read latch in a successful read
(R80 to R82, R86, R87). -/
theorem exec_unlatched_cases {i : Instr} (hi : isLogical i = false) (hc : ∀ value, i ≠ .wrCmd value)
    (hd : ∀ value, i ≠ .wrData value) (h : exec i s = .next t) :
    (∃ r, t = s.reply r) ∨ (∃ c, t = s.raiseFatal c) ∨
      (∃ o value, t = { s with rlCmd := o }.reply (.okValue value)) := by
  cases i
  case rdStatus => exact .inl ⟨_, (Host.Outcome.next.inj (whenRunning_eq_next.mp h).2).symm⟩
  case unmapped => exact .inl ⟨_, (Host.Outcome.next.inj (whenRunning_eq_next.mp h).2).symm⟩
  case rdData => exact .inr (.inl ⟨_, (Host.Outcome.next.inj (whenRunning_eq_next.mp h).2).symm⟩)
  case wrStatus =>
    obtain rfl := Host.Outcome.next.inj (whenRunning_eq_next.mp h).2
    split
    · exact .inl ⟨_, rfl⟩
    · exact .inr (.inl ⟨_, rfl⟩)
  case rdCmd =>
    obtain rfl := Host.Outcome.next.inj (whenRunning_eq_next.mp h).2
    split
    · exact .inr (.inr ⟨_, _, rfl⟩)
    · exact .inr (.inr ⟨_, _, rfl⟩)
  case wrCmd value => exact absurd rfl (hc value)
  case wrData value => exact absurd rfl (hd value)
  all_goals cases hi

/-- R29 for every instruction: a byte-latched write is a successful first byte, or a logical write on the drained
latch. -/
theorem exec_notOkFrame {i : Instr} (h : exec i s = .next t) (ht : t.result = some r) (hr : r.isOk = false) :
    NotOkFrame s t r := by
  cases hi : isLogical i with
  | true => exact (logicalEffect_of_next hi h).notOkFrame ht hr
  | false =>
    by_cases hc : ∃ value, i = .wrCmd value
    · obtain ⟨value, rfl⟩ := hc
      obtain ⟨-, ⟨-, rfl⟩ | ⟨b, -, h⟩⟩ := exec_wrCmd_cases h
      · cases ht
        cases hr
      · exact ((logicalEffect_of_next rfl h).notOkFrame ht hr).of_setWriteLatch
    by_cases hd : ∃ value, i = .wrData value
    · obtain ⟨value, rfl⟩ := hd
      obtain ⟨-, ⟨-, rfl⟩ | ⟨b, -, -, h⟩ | ⟨b, -, -, rfl⟩⟩ := exec_wrData_cases h
      · cases ht
        cases hr
      · exact ((logicalEffect_of_next (isLogical_decodeData _ _) h).notOkFrame ht hr).of_setWriteLatch
      · exact (NotOkFrame.of_raiseFatal _).of_setWriteLatch
    obtain ⟨r', rfl⟩ | ⟨c, rfl⟩ | ⟨o, value, rfl⟩ := exec_unlatched_cases hi (not_exists.mp hc) (not_exists.mp hd) h
    · exact .of_reply r'
    · exact .of_raiseFatal c
    · cases ht
      cases hr

/-- Settles O37, from what each kind of transaction can do when it does not return `Ok`. -/
theorem onlyOkChangesRegisters : Obligations.OnlyOkChangesRegisters := by
  intro i s t r h ht hr
  obtain ⟨hregisters, hvram⟩ := exec_notOkFrame h ht hr
  exact ⟨hregisters, hvram⟩

end Sys2Proof.Machine
end

section
/-! PROOF. The two byte-latched writes as equations (R83, R85, R88): the first byte of a pair, and the second. -/

namespace Sys2Proof.Machine

variable {s : State}

/-! ## The transactions by their latch, under either sharing -/

theorem exec_wrCmd_first (hr : s.halted = false) (hl : s.writeLatch .command = none) (value : BusWord) :
    exec (.wrCmd value) s = .next ((s.setWriteLatch .command (some (byteOf value))).reply .ok) :=
  (whenRunning_running hr _).trans (latchWrite_first hl value _)

theorem exec_wrCmd_second {h : Byte} (hr : s.halted = false) (hl : s.writeLatch .command = some h) (value : BusWord) :
    exec (.wrCmd value) s = exec (.setIr (bytePair h (byteOf value))) (s.setWriteLatch .command none) :=
  (whenRunning_running hr _).trans (latchWrite_second hl value _)

theorem exec_wrData_first (hr : s.halted = false) (hl : s.writeLatch .data = none) (value : BusWord) :
    exec (.wrData value) s = .next ((s.setWriteLatch .data (some (byteOf value))).reply .ok) :=
  (whenRunning_running hr _).trans (latchWrite_first hl value _)

/-- The Index Register is read when the second byte arrives (R85). -/
theorem exec_wrData_second {h : Byte} (hr : s.halted = false) (hl : s.writeLatch .data = some h)
    (hir : s.ir ≤ 0x12#16) (value : BusWord) :
    exec (.wrData value) s =
      exec (decodeData s.ir.toNat (bytePair h (byteOf value))) (s.setWriteLatch .data none) :=
  calc exec (.wrData value) s
    _ = latchWrite .data value s dataDispatch := whenRunning_running hr _
    _ = dataDispatch (bytePair h (byteOf value)) (s.setWriteLatch .data none) := latchWrite_second hl value _
    _ = exec (decodeData (s.setWriteLatch .data none).ir.toNat (bytePair h (byteOf value)))
          (s.setWriteLatch .data none) := dataDispatch_eq_exec _ (by rwa [State.setWriteLatch_ir])
    _ = exec (decodeData s.ir.toNat (bytePair h (byteOf value))) (s.setWriteLatch .data none) := by
          rw [State.setWriteLatch_ir]

/-! ## The governing latch under `PerRegister` (R17) -/

theorem State.writeLatch_command_perRegister (h : s.params.latchSharing = .perRegister) :
    s.writeLatch .command = s.wlCmd := by
  simp [State.writeLatch, h]

theorem State.writeLatch_data_perRegister (h : s.params.latchSharing = .perRegister) :
    s.writeLatch .data = s.wlData := by
  simp [State.writeLatch, h]

end Sys2Proof.Machine
end

section
/-! PROOF of O6 (R85): the second Data byte runs the row that its logical word decodes to. -/

namespace Sys2Proof.Machine

/-- An Index Register of at most 0x12 goes whole into `IRX` of the logical word (R62, R64). -/
theorem dataWord_eq_of_le {ir : Word} (h : ir ≤ 0x12#16) (v : Word) :
    dataWord ir v = 0x80000000#32 ||| (ir.setWidth 32 <<< 24) ||| v.setWidth 32 := by
  have hle : ir.toNat ≤ 18 := by simpa [BitVec.le_def] using h
  have hirx : (ir.extractLsb' 0 5).setWidth 32 = ir.setWidth 32 := by
    apply BitVec.eq_of_toNat_eq
    simp only [BitVec.toNat_setWidth, BitVec.extractLsb'_toNat, Nat.shiftRight_zero]
    omega
  rw [dataWord, hirx]

/-- Settles O6: the row the logical word decodes to is the one that `DATA_DISPATCH` runs. -/
theorem dataWriteLatchesThenRunsSelectedCommand : Obligations.DataWriteLatchesThenRunsSelectedCommand := by
  refine ⟨fun value => rfl, fun s value hr hp => ⟨fun hl => ?_, fun h hl hir => ?_⟩⟩
  · rw [exec_wrData_first hr ((State.writeLatch_data_perRegister hp).trans hl),
      State.setWriteLatch_data_perRegister s _ hp]
    rfl
  · refine ⟨decodeData s.ir.toNat (bytePair h (byteOf value)), ?_, ?_⟩
    · exact (congrArg (fun l => decode (.logical l)) (dataWord_eq_of_le hir _).symm).trans (decode_dataWord s.ir _ hir)
    · rw [exec_wrData_second hr ((State.writeLatch_data_perRegister hp).trans hl) hir,
        State.setWriteLatch_data_perRegister s _ hp]

end Sys2Proof.Machine
end

section
/-! PROOF of O3 (R82): the two reads of a Command pair. -/

namespace Sys2Proof.Machine

variable {s t : State}

/-- The contrast field has 7 bits, so its high byte on the bus is zero (R82, R95). -/
theorem highByte_cmdReadValue_ct (h : s.params.cmdReadSource = .ct) : highByte (cmdReadValue s) = 0#8 := by
  ext i hi
  have hbit : s.ct.getLsbD (8 + i) = false := BitVec.getLsbD_of_ge s.ct (8 + i) (by omega)
  simp [highByte, cmdReadValue, h, hbit]

/-- Neither byte of a Command write touches the read latch (R18). -/
theorem exec_wrCmd_rlCmd {value : BusWord} (h : exec (.wrCmd value) s = .next t) : t.rlCmd = s.rlCmd := by
  obtain ⟨-, ⟨-, rfl⟩ | ⟨b, -, h⟩⟩ := exec_wrCmd_cases h
  · simp
  · simpa using (logicalFrame_of_next rfl h).rlCmd

/-- Settles O3, by the branch that the read latch selects. -/
theorem commandReadReturnsHighByteThenLatchedLow : Obligations.CommandReadReturnsHighByteThenLatchedLow := by
  refine ⟨fun value => rfl, fun s hr => ⟨fun lo hlo => ?_, fun hnone => ?_, highByte_cmdReadValue_ct, fun value t =>
    exec_wrCmd_rlCmd⟩⟩
  · rw [exec, execRdCmd, whenRunning_running hr, hlo]
    rfl
  · rw [exec, execRdCmd, whenRunning_running hr, hnone]
    rfl

end Sys2Proof.Machine
end

section
/-! PROOF of O5 (R83): the second Command byte is `SET_IR` of the pair. -/

namespace Sys2Proof.Machine

/-- A pair with a non-zero high byte is above every legal Index Register value (R83, R93). -/
theorem not_bytePair_le_irMax {h : Byte} (hh : h ≠ 0#8) (l : Byte) : ¬ bytePair h l ≤ 0x12#16 := by
  intro hle
  have hlt : (bytePair h l).toNat ≤ 18 := by simpa [BitVec.le_def] using hle
  have hzero : highByte (bytePair h l) = 0#8 := by
    apply BitVec.eq_of_toNat_eq
    simp only [highByte, BitVec.extractLsb'_toNat, Nat.shiftRight_eq_div_pow, BitVec.toNat_ofNat]
    omega
  exact hh ((highByte_bytePair h l).symm.trans hzero)

/-- R93 for a value above 0x12. -/
theorem exec_setIr_above {s : State} (hr : s.halted = false) {v : Word} (hv : ¬ v ≤ 0x12#16) :
    exec (.setIr v) s = .next (s.reply (.contractViolation (.irOutOfRange v))) := by
  rw [exec, execSetIr, whenRunning_running hr, if_neg hv, State.raiseViolation_eq]

/-- Settles O5, from the two bytes of a Command write and the rejection of `SET_IR`. -/
theorem commandWriteLatchesThenSetsIndex : Obligations.CommandWriteLatchesThenSetsIndex := by
  refine ⟨fun value => rfl, fun s value hr hp => ⟨fun hl => ?_, fun h hl => ?_, fun h hl hh => ?_⟩⟩
  · rw [exec_wrCmd_first hr ((State.writeLatch_command_perRegister hp).trans hl),
      State.setWriteLatch_command_perRegister s _ hp]
    rfl
  · rw [exec_wrCmd_second hr ((State.writeLatch_command_perRegister hp).trans hl),
      State.setWriteLatch_command_perRegister s _ hp]
    rfl
  · have hrun : (s.setWriteLatch .command none).halted = false := (State.setWriteLatch_halted _ _ _).trans hr
    exact ⟨_, _, (exec_wrCmd_second hr ((State.writeLatch_command_perRegister hp).trans hl) value).trans
      (exec_setIr_above hrun (not_bytePair_le_irMax hh _)), State.reply_result _ _⟩

end Sys2Proof.Machine
end

section
/-! PROOF of O9 (R87): an offset that is none of the three registers. -/

namespace Sys2Proof.Machine

/-- A key whose offset is none of the three registers is none of the six of R59. -/
theorem decodeKey_unmapped {key : BusWord} (h : isRegisterOffset (keyOffset key) = false) (value : BusWord) :
    decodeKey key value = .unmapped (keyAccess key value) (keyOffset key) := by
  have hne : ∀ k : BusWord, isRegisterOffset (keyOffset k) = true → key ≠ k := by
    rintro k hk rfl
    simp [h] at hk
  rw [decodeKey, if_neg (hne _ (by decide)), if_neg (hne _ (by decide)), if_neg (hne _ (by decide)),
    if_neg (hne _ (by decide)), if_neg (hne _ (by decide)), if_neg (hne _ (by decide))]

/-- An access to any other offset is `UNMAPPED`, whether the offset has a key or not (R71, R87). -/
theorem decodeBus_unmapped {access : Access} {offset : Nat} (h : isRegisterOffset offset = false) :
    decodeBus ⟨access, offset⟩ = .unmapped access offset := by
  cases hkey : busKey ⟨access, offset⟩ with
  | none => simp only [decodeBus, hkey]
  | some key =>
    have hoffset := keyOffset_of_busKey hkey
    have haccess := keyAccess_of_busKey hkey
    dsimp only at hoffset haccess
    rw [decodeBus_of_key hkey, decodeKey_unmapped (by rwa [hoffset]), haccess, hoffset]

/-- Settles O9, with or without a key for the offset. -/
theorem unmappedAccessChangesNothing : Obligations.UnmappedAccessChangesNothing := by
  intro s access offset hr h0 h8 h10
  have hoffset : isRegisterOffset offset = false := by simp [isRegisterOffset, h0, h8, h10]
  exact ⟨decodeBus_unmapped hoffset, whenRunning_running hr _⟩

end Sys2Proof.Machine
end

section
/-! PROOF of O11 (R93): `SET_IR` takes the legal Index Register values only. -/

namespace Sys2Proof.Machine

/-- The encoding of `SET_IR` (R63, R93): a Command word gives its value back, whatever the value. -/
theorem decode_commandWord (v : Word) : decode (.logical (commandWord v)) = .ok (.setIr v) := by
  have hreg : wordReg (commandWord v) = 0b01#2 :=
    (extract_or_value 0x40000000#32 v 30 2 (by omega)).trans (by decide)
  have hvalue : wordValue (commandWord v) = v := wordValue_or 0x40000000#32 v (by decide)
  rw [decode, decodeLogical, if_pos hreg, hvalue]

/-- R93 for a value up to 0x12. -/
theorem exec_setIr_legal {s : State} (hr : s.halted = false) {v : Word} (hv : v ≤ 0x12#16) :
    exec (.setIr v) s = .next ({ s with ir := v }.reply .ok) := by
  rw [exec, execSetIr, whenRunning_running hr, if_pos hv]

/-- Settles O11, from the encoding of `SET_IR` and its two ranges. -/
theorem setIrAcceptsLegalIndexesOnly : Obligations.SetIrAcceptsLegalIndexesOnly :=
  ⟨decode_commandWord, fun _ _ hr =>
    ⟨fun hv => exec_setIr_legal hr hv, fun hv => exec_setIr_above hr (BitVec.not_le.mpr hv)⟩⟩

end Sys2Proof.Machine
end

section
/-! PROOF of O18 (R104): the two no-ops of the Data register. -/

namespace Sys2Proof.Machine

/-- The encoding of `DATA_NOP_09` (R64, D25): the Data word of Index Register value 0x09. -/
theorem decode_nop09Word (v : Word) :
    decode (.logical (0x89000000#32 ||| v.setWidth 32)) = .ok (.dataNop09 v) :=
  decode_dataWord 0x09#16 v (by decide)

/-- The encoding of `DATA_NOP_0A` (R64, D25): the Data word of Index Register value 0x0A. -/
theorem decode_nop0AWord (v : Word) :
    decode (.logical (0x8A000000#32 ||| v.setWidth 32)) = .ok (.dataNop0A v) :=
  decode_dataWord 0x0A#16 v (by decide)

/-- Settles O18: each no-op is the Data word of its Index Register value, and on a running block only replies. -/
theorem noOpsChangeNothing : Obligations.NoOpsChangeNothing :=
  ⟨fun v => ⟨decode_nop09Word v, decode_nop0AWord v⟩,
    fun _ _ hr => ⟨whenRunning_running hr _, whenRunning_running hr _⟩⟩

end Sys2Proof.Machine
end

section
/-! PROOF of O32 (R125): the seven commands the source does not emulate. -/

namespace Sys2Proof.Machine

variable {s : State}

/-- The Index Register values of the seven commands (R125; the numbers are D25). -/
def unimplementedIndexes : List Word := [0x02#16, 0x03#16, 0x08#16, 0x0B#16, 0x0C#16, 0x0D#16, 0x0E#16]

theorem unimplementedIndexes_le_irMax : ∀ n ∈ unimplementedIndexes, n ≤ 0x12#16 := by
  simp [unimplementedIndexes]

/-- R125: each of the seven rows has the one meaning, whatever the value. -/
theorem exec_unimplementedRow {n : Word} (hn : n ∈ unimplementedIndexes) (v : Word) (s : State) :
    exec (decodeData n.toNat v) s = unimplementedCommand s := by
  simp only [unimplementedIndexes, List.mem_cons, List.not_mem_nil, or_false] at hn
  rcases hn with rfl | rfl | rfl | rfl | rfl | rfl | rfl <;> rfl

theorem unimplementedCommand_running (hr : s.halted = false) :
    unimplementedCommand s = .next (s.raiseFatal (.unimplemented s.ir)) :=
  whenRunning_running hr _

/-- The Data byte that completes a pair while `IR` selects one of the seven (R85, R125). -/
theorem exec_wrData_unimplemented (hr : s.halted = false) (hl : s.writeLatch .data ≠ none)
    (hir : s.ir ∈ unimplementedIndexes) (value : BusWord) :
    exec (.wrData value) s = .next ((s.setWriteLatch .data none).raiseFatal (.unimplemented s.ir)) := by
  obtain ⟨h, hl⟩ := Option.ne_none_iff_exists'.mp hl
  rw [exec_wrData_second hr hl (unimplementedIndexes_le_irMax _ hir), exec_unimplementedRow hir,
    unimplementedCommand_running ((State.setWriteLatch_halted _ _ _).trans hr), State.setWriteLatch_ir]

/-- Settles O32: the listed instructions are the rows of the seven Index Register values, which have one meaning. -/
theorem unimplementedCommandsHaltTheBlock : Obligations.UnimplementedCommandsHaltTheBlock := by
  refine ⟨fun v => ?_, fun s v i hr hi => ?_, fun s n hr hn hmem => ?_⟩
  · have hdecode := fun n hn => decode_dataWord n v (unimplementedIndexes_le_irMax n hn)
    exact ⟨hdecode 0x02#16 (by decide), hdecode 0x03#16 (by decide), hdecode 0x08#16 (by decide),
      hdecode 0x0B#16 (by decide), hdecode 0x0C#16 (by decide), hdecode 0x0D#16 (by decide),
      hdecode 0x0E#16 (by decide)⟩
  · have hrow : i ∈ unimplementedIndexes.map fun n => decodeData n.toNat v := hi
    obtain ⟨n, hn, rfl⟩ := List.mem_map.mp hrow
    exact (exec_unimplementedRow hn v s).trans (unimplementedCommand_running hr)
  · subst hn
    exact ⟨fun v => (exec_unimplementedRow hmem v s).trans (unimplementedCommand_running hr),
      fun hl => exec_wrData_unimplemented hr hl hmem⟩

end Sys2Proof.Machine
end

section
/-! PROOF of O33 (R126): the two index values with no command, and an Index Register above 0x12. -/

namespace Sys2Proof.Machine

variable {s : State}

theorem undefinedDispatch_running (hr : s.halted = false) :
    undefinedDispatch s = .next (s.raiseFatal (.undefinedDispatch s.ir)) :=
  whenRunning_running hr _

/-- The Data byte that completes a pair while `IR` is above 0x12 (R79, R126; log 29). -/
theorem exec_wrData_above (hr : s.halted = false) (hl : s.writeLatch .data ≠ none) (hir : 0x12#16 < s.ir)
    (value : BusWord) :
    exec (.wrData value) s = .next ((s.setWriteLatch .data none).raiseFatal (.undefinedDispatch s.ir)) := by
  obtain ⟨h, hl⟩ := Option.ne_none_iff_exists'.mp hl
  have hdrained : ¬ (s.setWriteLatch .data none).ir ≤ 0x12#16 := by
    rw [State.setWriteLatch_ir]
    exact BitVec.not_le.mpr hir
  calc exec (.wrData value) s
    _ = latchWrite .data value s dataDispatch := whenRunning_running hr _
    _ = dataDispatch (bytePair h (byteOf value)) (s.setWriteLatch .data none) := latchWrite_second hl value _
    _ = undefinedDispatch (s.setWriteLatch .data none) := dataDispatch_above _ hdrained
    _ = .next ((s.setWriteLatch .data none).raiseFatal (.undefinedDispatch s.ir)) := by
          rw [undefinedDispatch_running ((State.setWriteLatch_halted _ _ _).trans hr), State.setWriteLatch_ir]

/-- Settles O33: the two rows are undefined dispatch itself, and so is the dispatch of an Index Register above 0x12. -/
theorem undefinedDispatchHaltsTheBlock : Obligations.UndefinedDispatchHaltsTheBlock :=
  ⟨fun v => ⟨decode_dataWord 0x00#16 v (by decide), decode_dataWord 0x0F#16 v (by decide)⟩,
    fun _ _ hr => ⟨undefinedDispatch_running hr, undefinedDispatch_running hr⟩,
    fun _ value hr hl hir => exec_wrData_above hr hl hir value⟩

end Sys2Proof.Machine
end

section
/-! PROOF of O46 (R136): a bus transaction commutes with the bus master's view, so the display reader's accesses,
which do not change the view, can be left out of any schedule. -/

namespace Sys2Proof.Machine

variable {s t : State}

/-! ## The bus master's view -/

@[simp] theorem State.busView_params : s.busView.params = s.params := rfl
@[simp] theorem State.busView_rlCmd : s.busView.rlCmd = s.rlCmd := rfl
@[simp] theorem State.busView_with_pending (events : List Event) :
    { s with pending := events }.busView = s.busView := rfl
@[simp] theorem takeSnapshot_busView : (takeSnapshot s).busView = s.busView := rfl
@[simp] theorem takeInvert_busView : (takeInvert s).busView = s.busView := rfl

theorem mapNext_eq_next {f : State → State} {o : Host.Outcome State Fault Refusal} :
    mapNext f o = .next t ↔ ∃ u, o = .next u ∧ f u = t := by
  cases o <;> simp

theorem mapNext_eq_fault {f : State → State} {o : Host.Outcome State Fault Refusal} {r : Fault} :
    mapNext f o = .fault r ↔ o = .fault r := by
  cases o <;> simp

theorem mapNext_eq_refused {f : State → State} {o : Host.Outcome State Fault Refusal} {r : Refusal} :
    mapNext f o = .refused r ↔ o = .refused r := by
  cases o <;> simp

/-! ## A transaction commutes with the view -/

/-- The check for a halted block commutes with the view if what it guards does. -/
theorem whenRunning_busView {o o' : Host.Outcome State Fault Refusal} (h : outcomeBusView o = o') :
    whenRunning s.busView o' = outcomeBusView (whenRunning s o) := by
  cases hr : s.halted with
  | true => rw [whenRunning_halted hr, whenRunning_halted (s := s.busView) hr]; rfl
  | false => rw [whenRunning_running hr, whenRunning_running (s := s.busView) hr, h]

theorem exec_busView_of_logical {i : Instr} (hi : isLogical i = true) :
    exec i s.busView = outcomeBusView (exec i s) := by
  cases i
  case setIr | dataEntryMode | dataWriteCgram =>
    exact whenRunning_busView (congrArg Host.Outcome.next (apply_ite State.busView _ _ _))
  case rdStatus | wrStatus | rdCmd | wrCmd | rdData | wrData | unmapped => cases hi
  all_goals exact whenRunning_busView rfl

theorem execSetIr_busView (v : Word) (s : State) : execSetIr v s.busView = outcomeBusView (execSetIr v s) :=
  exec_busView_of_logical (i := .setIr v) rfl

theorem dataDispatch_busView (v : Word) (s : State) :
    dataDispatch v s.busView = outcomeBusView (dataDispatch v s) := by
  by_cases hir : s.ir ≤ 0x12#16
  · rw [dataDispatch_eq_exec v hir, dataDispatch_eq_exec (s := s.busView) v hir]
    exact exec_busView_of_logical (isLogical_decodeData _ _)
  · rw [dataDispatch_above v hir, dataDispatch_above (s := s.busView) v hir]
    exact whenRunning_busView rfl

/-- A byte-latched write commutes with the view if its logical write does. -/
theorem latchWrite_busView {k : Word → State → Host.Outcome State Fault Refusal}
    (hk : ∀ v u, k v (State.busView u) = outcomeBusView (k v u)) (l : LatchReg) (value : BusWord) :
    latchWrite l value s.busView k = outcomeBusView (latchWrite l value s k) := by
  have hview := State.busView_writeLatch (s := s) l
  cases hl : s.writeLatch l with
  | none =>
    rw [latchWrite_first hl, latchWrite_first (hview.trans hl), State.busView_setWriteLatch]
    rfl
  | some b => rw [latchWrite_second hl, latchWrite_second (hview.trans hl), State.busView_setWriteLatch, hk]

/-- No bus result depends on the schedule or on what the display reader has read (R136). -/
theorem exec_busView (i : Instr) : exec i s.busView = outcomeBusView (exec i s) := by
  cases hi : isLogical i with
  | true => exact exec_busView_of_logical hi
  | false =>
    cases i
    case rdStatus | rdData | unmapped => exact whenRunning_busView rfl
    case wrStatus =>
      refine whenRunning_busView (congrArg Host.Outcome.next ?_)
      cases h : s.params.statusWritePolicy <;> simp only [State.busView_params, h] <;> rfl
    case rdCmd =>
      refine whenRunning_busView (congrArg Host.Outcome.next ?_)
      cases h : s.rlCmd <;> simp only [State.busView_rlCmd, h] <;> rfl
    case wrCmd => exact whenRunning_busView ((latchWrite_busView execSetIr_busView _ _).symm)
    case wrData => exact whenRunning_busView ((latchWrite_busView dataDispatch_busView _ _).symm)
    all_goals cases hi

/-! ## The two runs -/

/-- The view of a bus step is the transaction on the view. -/
theorem outcomeBusView_step_bus {tr : BusTransaction} {rest : List Event} (h : s.pending = .bus tr :: rest) :
    outcomeBusView (step s) = exec (decodeBus tr) s.busView := by
  rw [step_bus h, ← exec_busView, State.busView_with_pending]

theorem pending_of_step_bus {tr : BusTransaction} {rest : List Event} (h : s.pending = .bus tr :: rest)
    (ht : step s = .next t) : t.pending = rest := by
  rw [step_bus h] at ht
  obtain ⟨-, hpending, -⟩ := exec_keeps_environment ht
  exact hpending

/-- Two states with the same view, one with a schedule and one with its bus transactions alone, run to the same view. -/
theorem run_busTransactions_busView {events : List Event} (hs : s.pending = events)
    (ht : t.pending = events.filter Event.isBus) (hview : s.busView = t.busView) :
    outcomeBusView (Sys2Proof.core.run events.length s) =
      outcomeBusView (Sys2Proof.core.run (events.filter Event.isBus).length t) := by
  induction events generalizing s t with
  | nil => exact congrArg Host.Outcome.next hview
  | cons e rest ih =>
    cases e with
    | snapshot =>
      rw [List.length_cons, run_succ_next (step_snapshot hs)]
      exact ih rfl ht (takeSnapshot_busView.trans hview)
    | readInvert =>
      rw [List.length_cons, run_succ_next (step_readInvert hs)]
      exact ih rfl ht (takeInvert_busView.trans hview)
    | bus tr =>
      rw [List.filter_cons_of_pos rfl] at ht ⊢
      have hstep_s := outcomeBusView_step_bus hs
      have hstep_t := outcomeBusView_step_bus ht
      rw [← hview] at hstep_t
      rw [List.length_cons, List.length_cons]
      cases ho : exec (decodeBus tr) s.busView with
      | next u =>
        obtain ⟨s', hs', hu⟩ := mapNext_eq_next.mp (hstep_s.trans ho)
        obtain ⟨t', ht', hu'⟩ := mapNext_eq_next.mp (hstep_t.trans ho)
        rw [run_succ_next hs', run_succ_next ht']
        exact ih (pending_of_step_bus hs hs') (pending_of_step_bus ht ht') (hu.trans hu'.symm)
      | fault r =>
        rw [run_succ_fault (mapNext_eq_fault.mp (hstep_s.trans ho)),
          run_succ_fault (mapNext_eq_fault.mp (hstep_t.trans ho))]
      | refused r =>
        rw [run_succ_refused (mapNext_eq_refused.mp (hstep_s.trans ho)),
          run_succ_refused (mapNext_eq_refused.mp (hstep_t.trans ho))]

/-- Settles O46: the two runs start from states with the same view. -/
theorem displayReaderDoesNotDisturbTheBusMaster : Obligations.DisplayReaderDoesNotDisturbTheBusMaster :=
  fun _ _ => run_busTransactions_busView rfl rfl rfl

end Sys2Proof.Machine
end

section
/-! PROOF of O36 (R144): a logical write that ends in a ContractViolation has rejected its value and done nothing
else; a byte-latched write adds the draining of its own latch, and no other transaction returns one but by a reply. -/

namespace Sys2Proof.Machine

variable {s t : State} {c : Cause}

/-- The two rejections, of an Index Register value (R93) and of `AM = 0b11` (R101), are bare replies. -/
theorem LogicalEffect.eq_reply_of_violation {i : Instr} (e : LogicalEffect s i t)
    (ht : t.result = some (.contractViolation c)) : t = s.reply (.contractViolation c) := by
  cases e
  case setIrRejected => cases ht; rfl
  case entryModeRejected => cases ht; rfl
  all_goals cases ht

theorem exec_logical_violation {i : Instr} (hi : isLogical i = true) (h : exec i s = .next t)
    (ht : t.result = some (.contractViolation c)) : t = s.reply (.contractViolation c) :=
  (logicalEffect_of_next hi h).eq_reply_of_violation ht

/-- A Command write returns a violation by its second byte alone, from `SET_IR` on the drained latch (R83). -/
theorem exec_wrCmd_violation {value : BusWord} (h : exec (.wrCmd value) s = .next t)
    (ht : t.result = some (.contractViolation c)) :
    s.writeLatch .command ≠ none ∧ t = (s.setWriteLatch .command none).reply (.contractViolation c) := by
  obtain ⟨-, ⟨-, rfl⟩ | ⟨b, hb, h⟩⟩ := exec_wrCmd_cases h
  · cases ht
  · exact ⟨by simp [hb], exec_logical_violation rfl h ht⟩

/-- A Data write returns a violation by its second byte alone, from the selected command on the drained latch (R85). -/
theorem exec_wrData_violation {value : BusWord} (h : exec (.wrData value) s = .next t)
    (ht : t.result = some (.contractViolation c)) :
    s.writeLatch .data ≠ none ∧ t = (s.setWriteLatch .data none).reply (.contractViolation c) := by
  obtain ⟨-, ⟨-, rfl⟩ | ⟨b, hb, -, h⟩ | ⟨b, -, -, rfl⟩⟩ := exec_wrData_cases h
  · cases ht
  · exact ⟨by simp [hb], exec_logical_violation (isLogical_decodeData _ _) h ht⟩
  · cases ht

/-- A transaction that uses no write latch drains none. -/
theorem exec_unlatched_violation {i : Instr} (hi : ∀ value, i ≠ .wrCmd value ∧ i ≠ .wrData value)
    (h : exec i s = .next t) (ht : t.result = some (.contractViolation c)) :
    t = s.reply (.contractViolation c) := by
  cases hl : isLogical i with
  | true => exact exec_logical_violation hl h ht
  | false =>
    obtain ⟨r, rfl⟩ | ⟨c', rfl⟩ | ⟨o, value, rfl⟩ :=
      exec_unlatched_cases hl (fun value => (hi value).1) (fun value => (hi value).2) h
    · cases ht; rfl
    · cases ht
    · cases ht

/-- Settles O36, from the three ways a transaction can return a ContractViolation. -/
theorem contractViolationChangesOnlyTheDrainedLatch : Obligations.ContractViolationChangesOnlyTheDrainedLatch := by
  intro i s t c h ht
  refine ⟨fun value hi => ?_, fun value hi => ?_, fun hi => ?_⟩
  · subst hi
    obtain ⟨hfull, rfl⟩ := exec_wrCmd_violation h ht
    exact ⟨hfull, rfl⟩
  · subst hi
    obtain ⟨hfull, rfl⟩ := exec_wrData_violation h ht
    exact ⟨hfull, rfl⟩
  · obtain rfl := exec_unlatched_violation hi h ht
    rfl

end Sys2Proof.Machine
end

section
/-! PROOF. The decode keys taken apart and put together again (R59, R62 to R64): the fields of a logical word, the
transaction of a bus key, and the row number of a Data command. -/

namespace Sys2Proof.Machine

/-! ## The fields of a logical word (R62) -/

/-- A logical word is its five fields. -/
theorem logicalWord_ext {l l' : BusWord} (hreg : wordReg l = wordReg l') (h29 : l.getLsbD 29 = l'.getLsbD 29)
    (hirx : wordIrx l = wordIrx l') (hzero : l.extractLsb' 16 8 = l'.extractLsb' 16 8)
    (hvalue : wordValue l = wordValue l') : l = l' := by
  apply BitVec.eq_of_toNat_eq
  simp only [wordReg, wordIrx, wordValue, BitVec.getLsbD, Nat.testBit_eq_decide_div_mod_eq, decide_eq_decide,
    ← BitVec.toNat_inj, BitVec.extractLsb'_toNat, Nat.shiftRight_eq_div_pow] at hreg h29 hirx hzero hvalue
  omega

/-- Above its value, a Data word is `REG` 0b10, a zero bit, `IRX` and eight zero bits, whatever `IRX`. -/
theorem dataPrefix_fields : ∀ irx : BitVec 5,
    let x : BusWord := 0x80000000#32 ||| (irx.setWidth 32 <<< 24)
    wordReg x = 0b10#2 ∧ x.getLsbD 29 = false ∧ wordIrx x = irx ∧ x.extractLsb' 16 8 = 0#8 ∧
      x.extractLsb' 0 16 = 0#16 := by
  decide

variable (ir v : Word)

theorem wordReg_dataWord : wordReg (dataWord ir v) = 0b10#2 :=
  (extract_or_value _ v 30 2 (by omega)).trans (dataPrefix_fields (ir.extractLsb' 0 5)).1

theorem bit29_dataWord : (dataWord ir v).getLsbD 29 = false := by
  obtain ⟨-, h, -⟩ := dataPrefix_fields (ir.extractLsb' 0 5)
  rw [dataWord, BitVec.getLsbD_or, h]
  simp

theorem wordIrx_dataWord : wordIrx (dataWord ir v) = ir.extractLsb' 0 5 := by
  obtain ⟨-, -, h, -⟩ := dataPrefix_fields (ir.extractLsb' 0 5)
  exact (extract_or_value _ v 24 5 (by omega)).trans h

theorem zeroBits_dataWord : (dataWord ir v).extractLsb' 16 8 = 0#8 := by
  obtain ⟨-, -, -, h, -⟩ := dataPrefix_fields (ir.extractLsb' 0 5)
  exact (extract_or_value _ v 16 8 (by omega)).trans h

theorem wordValue_dataWord : wordValue (dataWord ir v) = v := by
  obtain ⟨-, -, -, -, h⟩ := dataPrefix_fields (ir.extractLsb' 0 5)
  exact wordValue_or _ v h

theorem wordReg_commandWord : wordReg (commandWord v) = 0b01#2 :=
  (extract_or_value _ v 30 2 (by omega)).trans (by decide)

theorem bit29_commandWord : (commandWord v).getLsbD 29 = false := by
  rw [commandWord, BitVec.getLsbD_or]
  simp

theorem wordIrx_commandWord : wordIrx (commandWord v) = 0#5 :=
  (extract_or_value _ v 24 5 (by omega)).trans (by decide)

theorem zeroBits_commandWord : (commandWord v).extractLsb' 16 8 = 0#8 :=
  (extract_or_value _ v 16 8 (by omega)).trans (by decide)

theorem wordValue_commandWord : wordValue (commandWord v) = v :=
  wordValue_or _ v (by decide)

/-- The canonical form of a logical word (R62), written out. -/
theorem canonical_logical_iff {l : BusWord} :
    (Code.logical l).canonical = true ↔ l.getLsbD 29 = false ∧ l.extractLsb' 16 8 = 0#8 ∧
      (wordReg l = 0b01#2 ∧ wordIrx l = 0#5 ∨ wordReg l = 0b10#2 ∧ wordIrx l ≤ 0x12#5) := by
  simp [Code.canonical, and_assoc]

theorem canonical_commandWord : (Code.logical (commandWord v)).canonical = true :=
  canonical_logical_iff.mpr ⟨bit29_commandWord v, zeroBits_commandWord v,
    .inl ⟨wordReg_commandWord v, wordIrx_commandWord v⟩⟩

/-- The number of a legal Index Register value is that of its low five bits, which go into `IRX` (R19, R64). -/
theorem toNat_extract_of_le {ir : Word} (h : ir ≤ 0x12#16) : (ir.extractLsb' 0 5).toNat = ir.toNat := by
  have hle : ir.toNat ≤ 18 := by simpa [BitVec.le_def] using h
  rw [BitVec.extractLsb'_toNat, Nat.shiftRight_zero, Nat.mod_eq_of_lt (by omega)]

/-- `IRX` of a Data word is the Index Register value whole. -/
theorem setWidth_wordIrx_dataWord {ir : Word} (h : ir ≤ 0x12#16) (v : Word) :
    (wordIrx (dataWord ir v)).setWidth 16 = ir := by
  apply BitVec.eq_of_toNat_eq
  rw [wordIrx_dataWord, BitVec.toNat_setWidth, toNat_extract_of_le h, Nat.mod_eq_of_lt ir.isLt]

theorem canonical_dataWord {ir : Word} (h : ir ≤ 0x12#16) (v : Word) :
    (Code.logical (dataWord ir v)).canonical = true := by
  refine canonical_logical_iff.mpr
    ⟨bit29_dataWord ir v, zeroBits_dataWord ir v, .inr ⟨wordReg_dataWord ir v, ?_⟩⟩
  rw [wordIrx_dataWord, BitVec.le_def, toNat_extract_of_le h]
  exact h

/-- A canonical logical word is the word of a Command write, or of a Data write with a legal Index Register value. -/
theorem canonical_logical_cases {l : BusWord} (h : (Code.logical l).canonical = true) :
    l = commandWord (wordValue l) ∨ ∃ ir : Word, ir ≤ 0x12#16 ∧ l = dataWord ir (wordValue l) := by
  obtain ⟨h29, hzero, ⟨hreg, hirx⟩ | ⟨hreg, hirx⟩⟩ := canonical_logical_iff.mp h
  · left
    apply logicalWord_ext
    · rw [hreg, wordReg_commandWord]
    · rw [h29, bit29_commandWord]
    · rw [hirx, wordIrx_commandWord]
    · rw [hzero, zeroBits_commandWord]
    · rw [wordValue_commandWord]
  · right
    refine ⟨(wordIrx l).setWidth 16, ?_, ?_⟩
    · simp only [BitVec.le_def, BitVec.toNat_setWidth, BitVec.toNat_ofNat] at hirx ⊢
      omega
    apply logicalWord_ext
    · rw [hreg, wordReg_dataWord]
    · rw [h29, bit29_dataWord]
    · rw [wordIrx_dataWord]
      apply BitVec.eq_of_toNat_eq
      simp only [BitVec.extractLsb'_toNat, BitVec.toNat_setWidth, Nat.shiftRight_zero]
      omega
    · rw [hzero, zeroBits_dataWord]
    · rw [wordValue_dataWord]

/-! ## The Index Register value of a Data row (R70) -/

/-- The Index Register value that selects an instruction's row, read from the row's match. -/
def rowIndex (i : Instr) : Word := (wordIrx (opcodeRow i).pattern).setWidth 16

/-- A legal Index Register value is one of nineteen numbers. -/
theorem exists_number_of_le {ir : Word} (h : ir ≤ 0x12#16) : ∃ n : Fin 19, BitVec.ofNat 16 n.val = ir :=
  ⟨⟨ir.toNat, Nat.lt_succ_of_le (by simpa [BitVec.le_def] using h)⟩, BitVec.ofNat_toNat 16 ir⟩

/-- The row of a Data command does not depend on the value written. -/
theorem opcodeRow_decodeData (n : Nat) (v w : Word) : opcodeRow (decodeData n v) = opcodeRow (decodeData n w) := by
  unfold decodeData
  split <;> rfl

theorem rowIndex_decodeData {ir : Word} (h : ir ≤ 0x12#16) (v : Word) : rowIndex (decodeData ir.toNat v) = ir := by
  have hzero : ∀ n : Fin 19, rowIndex (decodeData (BitVec.ofNat 16 n.val).toNat 0#16) = BitVec.ofNat 16 n.val := by
    decide
  obtain ⟨n, rfl⟩ := exists_number_of_le h
  rw [rowIndex, opcodeRow_decodeData _ v 0#16]
  exact hzero n

theorem encode_decodeData {ir : Word} (h : ir ≤ 0x12#16) (v : Word) :
    encode (decodeData ir.toNat v) = some (.logical (dataWord ir v)) := by
  obtain ⟨n, rfl⟩ := exists_number_of_le h
  fin_cases n <;> rfl

theorem wellFormed_decodeData (n : Nat) (v : Word) : (decodeData n v).wellFormed = true := by
  unfold decodeData
  split <;> rfl

theorem decodeData_ne_setIr (n : Nat) (v w : Word) : decodeData n v ≠ .setIr w := by
  unfold decodeData
  split <;> exact Instr.noConfusion

/-- A logical instruction is `SET_IR` or the Data command of a legal Index Register value. -/
theorem isLogical_cases {i : Instr} (hi : isLogical i = true) :
    (∃ v, i = .setIr v) ∨ ∃ (ir v : Word), ir ≤ 0x12#16 ∧ i = decodeData ir.toNat v := by
  cases i with
  | setIr v => exact .inl ⟨v, rfl⟩
  | rdStatus | wrStatus | rdCmd | wrCmd | rdData | wrData | unmapped => cases hi
  | dataR00 v => exact .inr ⟨0x00#16, v, by decide, rfl⟩
  | dataDriverOutput v => exact .inr ⟨0x01#16, v, by decide, rfl⟩
  | dataR02 v => exact .inr ⟨0x02#16, v, by decide, rfl⟩
  | dataR03 v => exact .inr ⟨0x03#16, v, by decide, rfl⟩
  | dataContrast v => exact .inr ⟨0x04#16, v, by decide, rfl⟩
  | dataEntryMode v => exact .inr ⟨0x05#16, v, by decide, rfl⟩
  | dataRotation v => exact .inr ⟨0x06#16, v, by decide, rfl⟩
  | dataDisplayControl v => exact .inr ⟨0x07#16, v, by decide, rfl⟩
  | dataR08 v => exact .inr ⟨0x08#16, v, by decide, rfl⟩
  | dataNop09 v => exact .inr ⟨0x09#16, v, by decide, rfl⟩
  | dataNop0A v => exact .inr ⟨0x0A#16, v, by decide, rfl⟩
  | dataHcursor v => exact .inr ⟨0x0B#16, v, by decide, rfl⟩
  | dataR0C v => exact .inr ⟨0x0C#16, v, by decide, rfl⟩
  | dataR0D v => exact .inr ⟨0x0D#16, v, by decide, rfl⟩
  | dataR0E v => exact .inr ⟨0x0E#16, v, by decide, rfl⟩
  | dataR0F v => exact .inr ⟨0x0F#16, v, by decide, rfl⟩
  | dataWriteMask v => exact .inr ⟨0x10#16, v, by decide, rfl⟩
  | dataRamAddress v => exact .inr ⟨0x11#16, v, by decide, rfl⟩
  | dataWriteCgram v => exact .inr ⟨0x12#16, v, by decide, rfl⟩

/-! ## The transaction of a bus key (R59) -/

theorem isRegisterOffset_iff {offset : Nat} :
    isRegisterOffset offset = true ↔ offset = 0x0 ∨ offset = 0x8 ∨ offset = 0x10 := by
  simp [isRegisterOffset, or_assoc]

/-- R71: what holds of the six transactions on the registers with their rows, and of an access elsewhere with
`UNMAPPED`, holds of every transaction with its instruction. -/
theorem decodeBus_induction {p : BusTransaction → Instr → Prop}
    (rdStatus : p ⟨.read, 0x0⟩ .rdStatus) (wrStatus : ∀ v, p ⟨.write v, 0x0⟩ (.wrStatus v))
    (rdCmd : p ⟨.read, 0x8⟩ .rdCmd) (wrCmd : ∀ v, p ⟨.write v, 0x8⟩ (.wrCmd v))
    (rdData : p ⟨.read, 0x10⟩ .rdData) (wrData : ∀ v, p ⟨.write v, 0x10⟩ (.wrData v))
    (unmapped : ∀ access offset, isRegisterOffset offset = false → p ⟨access, offset⟩ (.unmapped access offset))
    (t : BusTransaction) : p t (decodeBus t) := by
  obtain ⟨access, offset⟩ := t
  cases ho : isRegisterOffset offset with
  | false => rw [decodeBus_unmapped ho]; exact unmapped access offset ho
  | true =>
    obtain rfl | rfl | rfl := isRegisterOffset_iff.mp ho
    · cases access with
      | read => rw [decodeBus_rdStatus]; exact rdStatus
      | write v => rw [decodeBus_wrStatus]; exact wrStatus v
    · cases access with
      | read => rw [decodeBus_rdCmd]; exact rdCmd
      | write v => rw [decodeBus_wrCmd]; exact wrCmd v
    · cases access with
      | read => rw [decodeBus_rdData]; exact rdData
      | write v => rw [decodeBus_wrData]; exact wrData v

theorem wellFormed_decodeBus (t : BusTransaction) : (decodeBus t).wellFormed = true :=
  decodeBus_induction (p := fun _ i => i.wellFormed = true) rfl (fun _ => rfl) rfl (fun _ => rfl) rfl (fun _ => rfl)
    (fun _ _ ho => by rw [Instr.wellFormed, ho]; rfl) t

/-- The code of a transaction's instruction is the transaction's key with its write data, if it has a key. -/
theorem encode_decodeBus (t : BusTransaction) :
    encode (decodeBus t) = (busKey t).map fun key => .bus key t.access.value :=
  decodeBus_induction (p := fun t i => encode i = (busKey t).map fun key => .bus key t.access.value) rfl
    (fun v => by rw [busKey_write v 0#32]; rfl) rfl (fun v => by rw [busKey_write v 0#32]; rfl) rfl
    (fun v => by rw [busKey_write v 0#32]; rfl) (fun _ _ _ => rfl) t

/-- Every well-formed bus instruction is that of a transaction. -/
theorem exists_decodeBus_eq {i : Instr} (hi : isLogical i = false) (hw : i.wellFormed = true) :
    ∃ t, decodeBus t = i := by
  cases i
  case rdStatus => exact ⟨_, decodeBus_rdStatus⟩
  case wrStatus v => exact ⟨_, decodeBus_wrStatus v⟩
  case rdCmd => exact ⟨_, decodeBus_rdCmd⟩
  case wrCmd v => exact ⟨_, decodeBus_wrCmd v⟩
  case rdData => exact ⟨_, decodeBus_rdData⟩
  case wrData v => exact ⟨_, decodeBus_wrData v⟩
  case unmapped access offset =>
    rw [Instr.wellFormed, Bool.not_eq_true'] at hw
    exact ⟨⟨access, offset⟩, decodeBus_unmapped hw⟩
  all_goals cases hi

theorem busKey_eq_none {t : BusTransaction} : busKey t = none ↔ 2 ^ 31 ≤ t.offset := by
  simp [busKey]

theorem keyAccess_read {key : BusWord} (h : key.getLsbD 31 = false) (value : BusWord) :
    keyAccess key value = .read := by
  rw [keyAccess, h]; rfl

theorem keyAccess_write {key : BusWord} (h : key.getLsbD 31 = true) (value : BusWord) :
    keyAccess key value = .write value := by
  rw [keyAccess, h]; rfl

/-- `W` of the key of a key's transaction is the key's own (R59). -/
theorem writeBit_keyAccess (key value : BusWord) :
    (keyAccess key value).writeBit.getLsbD 0 = key.getLsbD 31 := by
  cases h : key.getLsbD 31 with
  | false => rw [keyAccess_read h]; rfl
  | true => rw [keyAccess_write h, Access.writeBit]; decide

/-- A key and its write data are those of the transaction they stand for. -/
theorem busKey_keyTransaction (key value : BusWord) : busKey (keyTransaction key value) = some key := by
  refine busKey_eq_some.mpr ⟨(key.extractLsb' 0 31).isLt, BitVec.eq_of_getLsbD_eq fun i hi => ?_⟩
  have hoffset : BitVec.ofNat 31 (keyOffset key) = key.extractLsb' 0 31 := BitVec.ofNat_toNat 31 _
  rw [BitVec.getLsbD_append, keyTransaction, hoffset]
  split
  · next hlt => simp [hlt]
  · next hge =>
    obtain rfl : i = 31 := by omega
    exact writeBit_keyAccess key value

theorem keyTransaction_of_busKey {t : BusTransaction} {key : BusWord} (h : busKey t = some key) :
    keyTransaction key t.access.value = t := by
  rw [keyTransaction, keyAccess_of_busKey h, keyOffset_of_busKey h]

/-- A bus code is canonical exactly if its data are what its transaction carries: none for a read (R59). -/
theorem canonical_bus_iff {key value : BusWord} :
    (Code.bus key value).canonical = true ↔ (keyTransaction key value).access.value = value := by
  cases h : key.getLsbD 31 with
  | false =>
    rw [Code.canonical, h, Bool.false_or, beq_iff_eq, keyTransaction, keyAccess_read h]
    exact eq_comm
  | true =>
    rw [Code.canonical, h, Bool.true_or, keyTransaction, keyAccess_write h]
    exact iff_of_true rfl rfl

end Sys2Proof.Machine
end

section
/-! PROOF of O51, O52 and O53 (R59, R62 to R64, R79): the encoder and the decoder undo each other, by format: a bus
code is the key of a transaction, a canonical logical word that of a Command or a Data write. -/

namespace Sys2Proof.Machine

/-! ## Each direction, by format -/

/-- The canonical bus codes are the keys of the transactions. -/
theorem canonical_bus_cases {key value : BusWord} (h : (Code.bus key value).canonical = true) :
    ∃ t, busKey t = some key ∧ t.access.value = value :=
  ⟨keyTransaction key value, busKey_keyTransaction key value, canonical_bus_iff.mp h⟩

theorem decode_of_busKey {t : BusTransaction} {key : BusWord} (h : busKey t = some key) :
    decode (.bus key t.access.value) = .ok (decodeBus t) := by
  rw [decode, decodeBus_of_key h]

theorem canonical_of_busKey {t : BusTransaction} {key : BusWord} (h : busKey t = some key) :
    (Code.bus key t.access.value).canonical = true := by
  rw [canonical_bus_iff, keyTransaction_of_busKey h]

/-- A canonical code decodes, and the instruction it decodes to is well-formed and has that code. -/
theorem canonical_decode_encode {c : Code} (h : c.canonical = true) :
    ∃ i, decode c = .ok i ∧ i.wellFormed = true ∧ encode i = some c := by
  cases c with
  | bus key value =>
    obtain ⟨t, hkey, rfl⟩ := canonical_bus_cases h
    exact ⟨decodeBus t, decode_of_busKey hkey, wellFormed_decodeBus t, by rw [encode_decodeBus, hkey]; rfl⟩
  | logical l =>
    obtain hl | ⟨ir, hir, hl⟩ := canonical_logical_cases h
    · rw [hl]
      exact ⟨.setIr (wordValue l), decode_commandWord _, rfl, rfl⟩
    · rw [hl]
      exact ⟨decodeData ir.toNat (wordValue l), decode_dataWord ir _ hir, wellFormed_decodeData _ _,
        encode_decodeData hir _⟩

/-- The code of a well-formed instruction is canonical and decodes to it. -/
theorem decode_of_encode {i : Instr} {c : Code} (hw : i.wellFormed = true) (h : encode i = some c) :
    decode c = .ok i ∧ c.canonical = true := by
  cases hi : isLogical i with
  | false =>
    obtain ⟨t, rfl⟩ := exists_decodeBus_eq hi hw
    rw [encode_decodeBus, Option.map_eq_some_iff] at h
    obtain ⟨key, hkey, rfl⟩ := h
    exact ⟨decode_of_busKey hkey, canonical_of_busKey hkey⟩
  | true =>
    obtain ⟨v, rfl⟩ | ⟨ir, v, hir, rfl⟩ := isLogical_cases hi
    · obtain rfl := Option.some.inj h
      exact ⟨decode_commandWord v, canonical_commandWord v⟩
    · obtain rfl := Option.some.inj ((encode_decodeData hir v).symm.trans h)
      exact ⟨decode_dataWord ir v hir, canonical_dataWord hir v⟩

/-- Only an access at an offset of `2^31` or more has no code (R59). -/
theorem encode_eq_none_iff {i : Instr} (hw : i.wellFormed = true) :
    encode i = none ↔ ∃ access offset, i = .unmapped access offset ∧ 2 ^ 31 ≤ offset := by
  constructor
  · intro h
    cases i
    case unmapped access offset => exact ⟨access, offset, rfl, busKey_eq_none.mp (Option.map_eq_none_iff.mp h)⟩
    all_goals cases h
  · rintro ⟨access, offset, rfl, hfar⟩
    exact Option.map_eq_none_iff.mpr (busKey_eq_none.mpr hfar)

/-- Every code lies in its instruction's own row of the opcode table. -/
theorem encodesInRow (i : Instr) : Laws.EncodesInRow.Statement i := by
  open Laws.EncodesInRow in
  exact i.casesOn rdStatus wrStatus rdCmd wrCmd rdData wrData unmapped setIr dataR00 dataDriverOutput dataR02 dataR03
    dataContrast dataEntryMode dataRotation dataDisplayControl dataR08 dataNop09 dataNop0A dataHcursor dataR0C dataR0D
    dataR0E dataR0F dataWriteMask dataRamAddress dataWriteCgram

/-- Settles O51, from the code of each format. -/
theorem decodeInvertsEncode : Obligations.DecodeInvertsEncode :=
  fun _ hw => ⟨fun _ h => decode_of_encode hw h, encode_eq_none_iff hw⟩

/-- Settles O52: a canonical code decodes to an instruction that has it, and to no other. -/
theorem encodeInvertsDecode : Obligations.EncodeInvertsDecode := by
  intro c i hc h
  obtain ⟨j, hj, -, hcode⟩ := canonical_decode_encode hc
  obtain rfl := Except.ok.inj (hj.symm.trans h)
  exact hcode

/-- Settles O53: a transaction decodes by its key, a canonical code to an instruction that has it. -/
theorem decodingIsTotalAndKeepsToTheTable : Obligations.DecodingIsTotalAndKeepsToTheTable := by
  refine ⟨fun t => ⟨wellFormed_decodeBus t, fun _ => decode_of_busKey⟩, fun c =>
    ⟨fun hc => ?_, fun i h hc => ?_⟩⟩
  · obtain ⟨i, hi, -⟩ := canonical_decode_encode hc
    exact ⟨i, hi⟩
  · obtain ⟨j, hj, hw, hcode⟩ := canonical_decode_encode hc
    obtain rfl := Except.ok.inj (hj.symm.trans h)
    exact ⟨hw, encodesInRow j c hcode⟩

end Sys2Proof.Machine
end

section
/-! PROOF. What every transaction can do, said once: it runs one logical write, on the block as it is or with the
latch of a completed pair drained, or it is one of the few transactions that run none. -/

namespace Sys2Proof.Machine

variable {s t u : State} {i j : Instr}

/-! ## The registers -/

/-- The state without its latches, the halt and the recorded result: what only a logical write changes. -/
def State.registers (s : State) : State :=
  { s with wlCmd := none, wlData := none, wl := none, rlCmd := none, halted := false, result := none }

@[simp] theorem State.registers_reply (r : Result) : (s.reply r).registers = s.registers := rfl
@[simp] theorem State.registers_raiseFatal (c : Cause) : (s.raiseFatal c).registers = s.registers := rfl
@[simp] theorem State.registers_setWriteLatch (l : LatchReg) (o : Option Byte) :
    (s.setWriteLatch l o).registers = s.registers := by
  unfold State.setWriteLatch
  split <;> rfl

/-! ## The logical write that a transaction runs -/

/-- Transaction `i` on `s` runs the logical write `j` on `u`: itself, or the one its completed pair stands for, on the
drained latch (R83, R85, R88). -/
inductive RunsAs (s : State) : Instr → Instr → State → Prop
  | logical (i : Instr) (hi : isLogical i = true) : RunsAs s i i s
  | wrCmd (value : BusWord) (v : Word) : RunsAs s (.wrCmd value) (.setIr v) (s.setWriteLatch .command none)
  | wrData (value : BusWord) (v : Word) (hir : s.ir ≤ 0x12#16) :
    RunsAs s (.wrData value) (decodeData s.ir.toNat v) (s.setWriteLatch .data none)

theorem RunsAs.registers (h : RunsAs s i j u) : u.registers = s.registers := by
  cases h <;> simp

theorem RunsAs.halted (h : RunsAs s i j u) : u.halted = s.halted := by
  cases h <;> simp

theorem RunsAs.rlCmd (h : RunsAs s i j u) : u.rlCmd = s.rlCmd := by
  cases h <;> simp

/-- A command other than `SET_IR` is run by itself, or by a Data byte while `IR` selects its row. -/
theorem RunsAs.eq_or_wrData (h : RunsAs s i j u) (hj : ∀ v, j ≠ .setIr v) :
    i = j ∨ ∃ value, i = .wrData value ∧ s.ir = rowIndex j := by
  cases h with
  | logical => exact .inl rfl
  | wrCmd value v => exact absurd rfl (hj v)
  | wrData value v hir => exact .inr ⟨value, rfl, (rowIndex_decodeData hir v).symm⟩

/-- `SET_IR` is run by itself or by a Command byte. -/
theorem RunsAs.eq_or_wrCmd {v : Word} (h : RunsAs s i (.setIr v) u) : i = .setIr v ∨ ∃ value, i = .wrCmd value := by
  generalize hj : Instr.setIr v = j at h
  cases h with
  | logical => exact .inl rfl
  | wrCmd value => exact .inr ⟨value, rfl⟩
  | wrData value w => exact absurd hj.symm (decodeData_ne_setIr _ w v)

/-! ## Every transaction -/

/-- Everything a transaction can do to a running block. -/
inductive Effect (s : State) : Instr → State → Prop
  | runs {i j : Instr} {u t : State} (h : RunsAs s i j u) (e : LogicalEffect u j t) : Effect s i t
  | rdStatus : Effect s .rdStatus (s.reply (.okValue s.params.statusValue))
  | wrStatusStub (value : BusWord) (hp : s.params.statusWritePolicy = .stubNoEffect) :
    Effect s (.wrStatus value) (s.reply (.stubWrite .statusWrite))
  | wrStatusFatal (value : BusWord) (hp : s.params.statusWritePolicy = .fatal) :
    Effect s (.wrStatus value) (s.raiseFatal .statusWrite)
  | rdCmd (o : Option Byte) (value : BusWord) : Effect s .rdCmd ({ s with rlCmd := o }.reply (.okValue value))
  | rdData : Effect s .rdData (s.raiseFatal .dataRead)
  | unmapped (access : Access) (offset : Nat) :
    Effect s (.unmapped access offset) (s.reply (.unmapped (.unmapped offset)))
  | wrCmdFirst (value : BusWord) (b : Byte) :
    Effect s (.wrCmd value) ((s.setWriteLatch .command (some b)).reply .ok)
  | wrDataFirst (value : BusWord) (b : Byte) :
    Effect s (.wrData value) ((s.setWriteLatch .data (some b)).reply .ok)
  | wrDataAbove (value : BusWord) :
    Effect s (.wrData value) ((s.setWriteLatch .data none).raiseFatal (.undefinedDispatch s.ir))

/-- A transaction that answers a next state was taken by a running block. -/
theorem running_of_next (h : exec i s = .next t) : s.halted = false := by
  cases i <;> exact (whenRunning_eq_next.mp h).1

theorem effect_of_next (h : exec i s = .next t) : Effect s i t := by
  cases i
  case rdStatus =>
    obtain rfl := Host.Outcome.next.inj (whenRunning_eq_next.mp h).2
    exact .rdStatus
  case wrStatus value =>
    obtain rfl := Host.Outcome.next.inj (whenRunning_eq_next.mp h).2
    split
    · exact .wrStatusStub value ‹_›
    · exact .wrStatusFatal value ‹_›
  case rdCmd =>
    obtain rfl := Host.Outcome.next.inj (whenRunning_eq_next.mp h).2
    split
    · exact .rdCmd _ _
    · exact .rdCmd _ _
  case rdData =>
    obtain rfl := Host.Outcome.next.inj (whenRunning_eq_next.mp h).2
    exact .rdData
  case unmapped access offset =>
    obtain rfl := Host.Outcome.next.inj (whenRunning_eq_next.mp h).2
    exact .unmapped access offset
  case wrCmd value =>
    obtain ⟨-, ⟨-, rfl⟩ | ⟨b, -, h⟩⟩ := exec_wrCmd_cases h
    · exact .wrCmdFirst value _
    · exact .runs (.wrCmd value _) (logicalEffect_of_next rfl h)
  case wrData value =>
    obtain ⟨-, ⟨-, rfl⟩ | ⟨b, -, hir, h⟩ | ⟨b, -, -, rfl⟩⟩ := exec_wrData_cases h
    · exact .wrDataFirst value _
    · exact .runs (.wrData value _ hir) (logicalEffect_of_next (isLogical_decodeData _ _) h)
    · exact .wrDataAbove value
  all_goals exact .runs (.logical _ rfl) (logicalEffect_of_next rfl h)

/-- The registers change only by a logical write, which runs on the registers as they were. -/
theorem exec_registers_cases (h : exec i s = .next t) :
    t.registers = s.registers ∨ ∃ j u, RunsAs s i j u ∧ u.registers = s.registers ∧ LogicalEffect u j t := by
  cases effect_of_next h
  case runs j u hrun e => exact .inr ⟨j, u, hrun, hrun.registers, e⟩
  all_goals exact .inl (by simp [State.registers])

end Sys2Proof.Machine
end

section
/-! PROOF of O19, O38, O39 and O40 (R25, R122, R44, R94): which transactions change `WM`, `AC`, video RAM and `IR`. -/

namespace Sys2Proof.Machine

variable {s t : State} {i : Instr}

/-! ## What each logical write changes -/

theorem LogicalEffect.wm_cases (e : LogicalEffect s i t) : t.wm = s.wm ∨ ∃ v, i = .dataWriteMask v := by
  cases e
  case writeMask v => exact .inr ⟨v, rfl⟩
  all_goals exact .inl rfl

theorem LogicalEffect.ac_cases (e : LogicalEffect s i t) :
    t.ac = s.ac ∨ t.result = some .ok ∧ ((∃ v, i = .dataRamAddress v) ∨ ∃ v, i = .dataWriteCgram v) := by
  cases e
  case ramAddress v => exact .inr ⟨rfl, .inl ⟨v, rfl⟩⟩
  case writeCgram v _ => exact .inr ⟨rfl, .inr ⟨v, rfl⟩⟩
  all_goals exact .inl rfl

theorem LogicalEffect.vram_cases (e : LogicalEffect s i t) :
    t.vram = s.vram ∨ ∃ v, i = .dataWriteCgram v ∧ t.vram = vramWrite s.vram s.ac.val (s.wordToStore v) := by
  cases e
  case writeCgram v _ => exact .inr ⟨v, rfl, rfl⟩
  case writeCgramFatal v _ => exact .inr ⟨v, rfl, rfl⟩
  all_goals exact .inl rfl

theorem LogicalEffect.ir_cases (e : LogicalEffect s i t) :
    t.ir = s.ir ∨ t.result = some .ok ∧ t.ir ≤ 0x12#16 ∧ ∃ v, i = .setIr v := by
  cases e
  case setIr v hv => exact .inr ⟨rfl, hv, v, rfl⟩
  all_goals exact .inl rfl

/-! ## The statements -/

theorem exec_dataWriteMask (hr : s.halted = false) (v : Word) :
    exec (.dataWriteMask v) s = .next ({ s with wm := v }.reply .ok) :=
  whenRunning_running hr _

theorem rowIndex_dataWriteMask (v : Word) : rowIndex (.dataWriteMask v) = 0x10#16 :=
  rowIndex_decodeData (ir := 0x10#16) (by decide) v

theorem rowIndex_dataRamAddress (v : Word) : rowIndex (.dataRamAddress v) = 0x11#16 :=
  rowIndex_decodeData (ir := 0x11#16) (by decide) v

theorem rowIndex_dataWriteCgram (v : Word) : rowIndex (.dataWriteCgram v) = 0x12#16 :=
  rowIndex_decodeData (ir := 0x12#16) (by decide) v

/-- Settles O19: `WM` is in the registers, and of the logical writes one changes it. -/
theorem writeMaskStoresTheWordAndLasts : Obligations.WriteMaskStoresTheWordAndLasts := by
  refine ⟨fun s v hr => exec_dataWriteMask hr v, fun i s t h hne => ?_⟩
  obtain hreg | ⟨j, u, hrun, hreg, e⟩ := exec_registers_cases h
  · exact absurd (congrArg State.wm hreg) hne
  have hwm : u.wm = s.wm := (congrArg State.wm hreg :)
  obtain hkeep | ⟨v, rfl⟩ := e.wm_cases
  · exact absurd (hkeep.trans hwm) hne
  obtain rfl | ⟨value, rfl, hir⟩ := hrun.eq_or_wrData (fun _ => Instr.noConfusion)
  · exact .inl ⟨v, rfl⟩
  · exact .inr ⟨value, rfl, hir.trans (rowIndex_dataWriteMask v)⟩

/-- Settles O38: of the logical writes two move `AC`, and both reply `Ok`. -/
theorem addressCounterMovesOnlyByItsCommands : Obligations.AddressCounterMovesOnlyByItsCommands := by
  intro i s t h hne
  obtain hreg | ⟨j, u, hrun, hreg, e⟩ := exec_registers_cases h
  · exact absurd (congrArg State.ac hreg) hne
  have hac : u.ac = s.ac := (congrArg State.ac hreg :)
  obtain hkeep | ⟨hok, ⟨v, rfl⟩ | ⟨v, rfl⟩⟩ := e.ac_cases
  · exact absurd (hkeep.trans hac) hne
  · obtain rfl | ⟨value, rfl, hir⟩ := hrun.eq_or_wrData (fun _ => Instr.noConfusion)
    · exact ⟨hok, .inl ⟨v, rfl⟩⟩
    · exact ⟨hok, .inr (.inr ⟨value, rfl, .inl (hir.trans (rowIndex_dataRamAddress v))⟩)⟩
  · obtain rfl | ⟨value, rfl, hir⟩ := hrun.eq_or_wrData (fun _ => Instr.noConfusion)
    · exact ⟨hok, .inr (.inl ⟨v, rfl⟩)⟩
    · exact ⟨hok, .inr (.inr ⟨value, rfl, .inr (hir.trans (rowIndex_dataWriteCgram v))⟩)⟩

/-- Video RAM changes by a write of the word at `AC`, in a video-RAM write. -/
theorem exec_vram_cases (h : exec i s = .next t) :
    t.vram = s.vram ∨ (∃ w, t.vram = vramWrite s.vram s.ac.val w) ∧
      ((∃ v, i = .dataWriteCgram v) ∨ ∃ value, i = .wrData value ∧ s.ir = 0x12#16) := by
  obtain hreg | ⟨j, u, hrun, hreg, e⟩ := exec_registers_cases h
  · exact .inl (congrArg State.vram hreg :)
  have hvram : u.vram = s.vram := (congrArg State.vram hreg :)
  have hac : u.ac = s.ac := (congrArg State.ac hreg :)
  obtain hkeep | ⟨v, rfl, hwrite⟩ := e.vram_cases
  · exact .inl (hkeep.trans hvram)
  rw [hvram, hac] at hwrite
  obtain rfl | ⟨value, rfl, hir⟩ := hrun.eq_or_wrData (fun _ => Instr.noConfusion)
  · exact .inr ⟨⟨_, hwrite⟩, .inl ⟨v, rfl⟩⟩
  · exact .inr ⟨⟨_, hwrite⟩, .inr ⟨value, rfl, hir.trans (rowIndex_dataWriteCgram v)⟩⟩

/-- Settles O39: a write of the word at `AC` leaves every other word. -/
theorem videoRamChangesOnlyAtTheAddressCounter : Obligations.VideoRamChangesOnlyAtTheAddressCounter := by
  intro i s t h
  obtain hkeep | ⟨⟨w, hwrite⟩, hby⟩ := exec_vram_cases h
  · exact ⟨fun b _ => congrArg (vramRead · b) hkeep, absurd hkeep⟩
  · exact ⟨fun b hb => hwrite ▸ vramRead_write_other w hb, fun _ => hby⟩

/-- Settles O40: of the logical writes `SET_IR` alone changes `IR`, to a legal value. -/
theorem indexRegisterChangesOnlyBySetIr : Obligations.IndexRegisterChangesOnlyBySetIr := by
  intro i s t h hne
  obtain hreg | ⟨j, u, hrun, hreg, e⟩ := exec_registers_cases h
  · exact absurd (congrArg State.ir hreg) hne
  have hir : u.ir = s.ir := (congrArg State.ir hreg :)
  obtain hkeep | ⟨hok, hle, v, rfl⟩ := e.ir_cases
  · exact absurd (hkeep.trans hir) hne
  obtain rfl | ⟨value, rfl⟩ := hrun.eq_or_wrCmd
  · exact ⟨hok, hle, .inl ⟨v, rfl⟩⟩
  · exact ⟨hok, hle, .inr ⟨value, rfl⟩⟩

end Sys2Proof.Machine
end

section
/-! PROOF of O41 (R18): the read latch and the write latches. -/

namespace Sys2Proof.Machine

variable {s t : State} {i : Instr}

theorem LogicalEffect.latches (e : LogicalEffect s i t) :
    t.rlCmd = s.rlCmd ∧ t.wlCmd = s.wlCmd ∧ t.wlData = s.wlData ∧ t.wl = s.wl := by
  cases e <;> exact ⟨rfl, rfl, rfl, rfl⟩

theorem exec_keeps_readLatch (h : exec i s = .next t) (hi : i ≠ .rdCmd) : t.rlCmd = s.rlCmd := by
  cases effect_of_next h
  case runs j u hrun e => exact e.latches.1.trans hrun.rlCmd
  case rdCmd => exact absurd rfl hi
  all_goals simp

theorem exec_keeps_writeLatches (h : exec i s = .next t) (hi : ∀ value, i ≠ .wrCmd value ∧ i ≠ .wrData value) :
    t.wlCmd = s.wlCmd ∧ t.wlData = s.wlData ∧ t.wl = s.wl := by
  cases effect_of_next h
  case runs j u hrun e =>
    cases hrun with
    | logical => exact e.latches.2
    | wrCmd value => exact absurd rfl (hi value).1
    | wrData value => exact absurd rfl (hi value).2
  case wrCmdFirst value b => exact absurd rfl (hi value).1
  case wrDataFirst value b => exact absurd rfl (hi value).2
  case wrDataAbove value => exact absurd rfl (hi value).2
  all_goals exact ⟨rfl, rfl, rfl⟩

/-- Settles O41, from what each transaction can do. -/
theorem readLatchAndWriteLatchesAreIndependent : Obligations.ReadLatchAndWriteLatchesAreIndependent :=
  fun _ _ _ h => ⟨exec_keeps_readLatch h, exec_keeps_writeLatches h⟩

end Sys2Proof.Machine
end

section
/-! PROOF of O35 (R170, R139, R142): a running block completes every transaction, and the halt is recorded. -/

namespace Sys2Proof.Machine

variable {s t : State} {i : Instr}

theorem Result.isFatal_iff {r : Result} : r.isFatal = true ↔ ∃ c, r = .fatalError c := by
  cases r <;> simp [Result.isFatal]

/-- The result a transaction records says whether it has halted the block (R142). -/
structure Recorded (t : State) (r : Result) : Prop where
  result : t.result = some r
  halted : t.halted = r.isFatal

theorem LogicalEffect.recorded (e : LogicalEffect s i t) (hr : s.halted = false) : ∃ r, Recorded t r := by
  cases e
  case writeCgramFatal | unimplemented | undefined => exact ⟨_, rfl, rfl⟩
  all_goals exact ⟨_, rfl, hr⟩

theorem exec_recorded (h : exec i s = .next t) : ∃ r, Recorded t r := by
  have hr := running_of_next h
  cases effect_of_next h
  case runs j u hrun e => exact e.recorded (hrun.halted.trans hr)
  case wrCmdFirst | wrDataFirst => exact ⟨_, rfl, (State.setWriteLatch_halted _ _ _).trans hr⟩
  case wrStatusFatal | rdData | wrDataAbove => exact ⟨_, rfl, rfl⟩
  all_goals exact ⟨_, rfl, hr⟩

theorem exec_running_of_logical (hi : isLogical i = true) (hr : s.halted = false) : ∃ t, exec i s = .next t := by
  cases i
  case rdStatus | wrStatus | rdCmd | wrCmd | rdData | wrData | unmapped => cases hi
  all_goals exact ⟨_, whenRunning_running hr _⟩

/-- A running block takes every transaction. -/
theorem exec_running (i : Instr) (hr : s.halted = false) : ∃ t, exec i s = .next t := by
  have hdrained : ∀ l, (s.setWriteLatch l none).halted = false := fun l =>
    (State.setWriteLatch_halted s l none).trans hr
  cases hi : isLogical i with
  | true => exact exec_running_of_logical hi hr
  | false =>
    cases i
    case wrCmd value =>
      cases hl : s.writeLatch .command with
      | none => exact ⟨_, exec_wrCmd_first hr hl value⟩
      | some b => rw [exec_wrCmd_second hr hl]; exact exec_running_of_logical rfl (hdrained _)
    case wrData value =>
      cases hl : s.writeLatch .data with
      | none => exact ⟨_, exec_wrData_first hr hl value⟩
      | some b =>
        by_cases hir : s.ir ≤ 0x12#16
        · rw [exec_wrData_second hr hl hir]
          exact exec_running_of_logical (isLogical_decodeData _ _) (hdrained _)
        · exact ⟨_, exec_wrData_above hr (by simp [hl]) (BitVec.not_le.mp hir) value⟩
    case rdStatus | wrStatus | rdCmd | rdData | unmapped => exact ⟨_, whenRunning_running hr _⟩
    all_goals cases hi

/-- Settles O35: a transaction on a running block completes, and records its result. -/
theorem runningBlockTakesEveryTransaction : Obligations.RunningBlockTakesEveryTransaction := by
  intro i s hr
  obtain ⟨t, h⟩ := exec_running i hr
  obtain ⟨r, hrec⟩ := exec_recorded h
  exact ⟨t, r, h, hrec.result, by rw [hrec.halted, Result.isFatal_iff]⟩

end Sys2Proof.Machine
end

section
/-! PROOF of O55, O56, O57 and O58 (R34, R33, R31): the invariant of the block, at construction and at every step. -/

namespace Sys2Proof.Machine

variable {s t : State} {i : Instr}

/-- The invariant without the halt (R19, R22, R27, R17), which holds also between the drain of a latch and the
result. -/
structure RegistersInv (s : State) : Prop where
  ir : s.ir ≤ 0x12#16
  am : s.am ≠ 0b11#2
  vram : s.vram.wf = true
  latches : s.UnusedLatchEmpty

theorem inv_iff : s.Inv ↔ RegistersInv s ∧ s.HaltRecorded :=
  ⟨fun ⟨hir, ham, hvram, hlatches, hrec⟩ => ⟨⟨hir, ham, hvram, hlatches⟩, hrec⟩,
    fun ⟨⟨hir, ham, hvram, hlatches⟩, hrec⟩ => ⟨hir, ham, hvram, hlatches, hrec⟩⟩

theorem RegistersInv.reply (h : RegistersInv s) (r : Result) : RegistersInv (s.reply r) :=
  ⟨h.ir, h.am, h.vram, h.latches⟩

theorem RegistersInv.raiseFatal (h : RegistersInv s) (c : Cause) : RegistersInv (s.raiseFatal c) :=
  ⟨h.ir, h.am, h.vram, h.latches⟩

/-- Setting a latch that governs a write sets none that does not exist (R17). -/
theorem State.unusedLatchEmpty_setWriteLatch (h : s.UnusedLatchEmpty) (l : LatchReg) (o : Option Byte) :
    (s.setWriteLatch l o).UnusedLatchEmpty := by
  cases hp : s.params.latchSharing <;> cases l <;>
    simpa [State.UnusedLatchEmpty, State.setWriteLatch, hp] using h

theorem RegistersInv.setWriteLatch (h : RegistersInv s) (l : LatchReg) (o : Option Byte) :
    RegistersInv (s.setWriteLatch l o) where
  ir := by simpa using h.ir
  am := by simpa using h.am
  vram := by simpa using h.vram
  latches := State.unusedLatchEmpty_setWriteLatch h.latches l o

/-- A logical write checks the values it stores in `IR` and `AM`, and keeps video RAM canonical. -/
theorem LogicalEffect.keeps_registersInv (e : LogicalEffect s i t) (h : RegistersInv s) : RegistersInv t := by
  obtain ⟨hir, ham, hvram, hlatches⟩ := h
  cases e
  case setIr v hv => exact ⟨hv, ham, hvram, hlatches⟩
  case entryMode v hv => exact ⟨hir, hv, hvram, hlatches⟩
  case writeCgram v _ => exact ⟨hir, ham, vramWrite_wf hvram s.ac _, hlatches⟩
  case writeCgramFatal v _ => exact ⟨hir, ham, vramWrite_wf hvram s.ac _, hlatches⟩
  all_goals exact ⟨hir, ham, hvram, hlatches⟩

theorem RunsAs.keeps_registersInv {j : Instr} {u : State} (hrun : RunsAs s i j u) (h : RegistersInv s) :
    RegistersInv u := by
  cases hrun with
  | logical => exact h
  | wrCmd => exact h.setWriteLatch _ _
  | wrData => exact h.setWriteLatch _ _

theorem exec_keeps_registersInv (h : exec i s = .next t) (hs : RegistersInv s) : RegistersInv t := by
  cases effect_of_next h
  case runs j u hrun e => exact e.keeps_registersInv (hrun.keeps_registersInv hs)
  case wrCmdFirst | wrDataFirst => exact (hs.setWriteLatch _ _).reply _
  case wrDataAbove => exact (hs.setWriteLatch _ _).raiseFatal _
  all_goals exact ⟨hs.ir, hs.am, hs.vram, hs.latches⟩

/-- The invariant of a state is restored by every transaction, from its part that does not speak of the halt. -/
theorem exec_keeps_inv (h : exec i s = .next t) (hs : RegistersInv s) : t.Inv := by
  obtain ⟨r, hrec⟩ := exec_recorded h
  refine inv_iff.mpr ⟨exec_keeps_registersInv h hs, ?_⟩
  rw [State.HaltRecorded, hrec.halted, hrec.result, Option.any_some]

/-- Settles O55, by the kind of access the step takes. -/
theorem everyStepKeepsTheInvariant : Obligations.EveryStepKeepsTheInvariant := by
  intro s t hs h
  obtain ⟨-, rfl⟩ | ⟨tr, rest, -, h⟩ | ⟨rest, -, rfl⟩ | ⟨rest, -, rfl⟩ := step_cases h
  · exact hs
  · obtain ⟨⟨hir, ham, hvram, hlatches⟩, -⟩ := inv_iff.mp hs
    exact exec_keeps_inv h ⟨hir, ham, hvram, hlatches⟩
  · exact hs
  · exact hs

/-- The block as constructed has the invariant (R33, R34). -/
theorem State.resetWith_inv (p : Params) {r : ResetState} {init : Vram} (hr : r.Legal) (hinit : init.wf = true) :
    (State.resetWith p r init).Inv := by
  refine inv_iff.mpr ⟨⟨hr.1, hr.2, hinit, ?_⟩, rfl⟩
  cases h : p.latchSharing <;> simp [State.UnusedLatchEmpty, h]

/-- Settles O57: the invariant, and each field as the construction sets it. -/
theorem everyLegalConstructionHasTheInvariant : Obligations.EveryLegalConstructionHasTheInvariant :=
  fun p _ _ hr hinit => ⟨State.resetWith_inv p hr hinit, rfl, rfl, rfl, rfl, rfl, rfl, rfl, rfl, rfl, rfl, rfl, rfl,
    rfl, rfl, rfl, rfl, rfl, rfl, rfl, rfl, rfl, rfl, rfl, rfl⟩

/-- Settles O56: the defaults are a legal construction. -/
theorem resetHasTheInvariant : Obligations.ResetHasTheInvariant :=
  State.resetWith_inv defaultParams (r := defaultResetState) (by decide) rfl

/-- Settles O58: a transaction keeps the parameters, and the display port writes none. -/
theorem parametersNeverChange : Obligations.ParametersNeverChange := by
  intro s t h
  obtain ⟨-, rfl⟩ | ⟨tr, rest, -, h⟩ | ⟨rest, -, rfl⟩ | ⟨rest, -, rfl⟩ := step_cases h
  · rfl
  · exact (exec_keeps_environment h).1
  · rfl
  · rfl

end Sys2Proof.Machine
end

section
/-! PROOF of O44 (R140, R141): the results and causes of each kind of transaction. -/

namespace Sys2Proof.Machine

variable {s t u : State} {i j : Instr} {r : Result}

/-- The results of a logical write, with their causes (R93, R101, R116, R125, R126). -/
inductive LogicalResult (s : State) : Result → Prop
  | ok : LogicalResult s .ok
  | irOutOfRange (v : Word) (hv : 0x12#16 < v) : LogicalResult s (.contractViolation (.irOutOfRange v))
  | amInvalid (v : Word) (hv : field v s.params.layout.am 2 = 0b11#2) :
    LogicalResult s (.contractViolation (.amInvalid v))
  | unimplemented : LogicalResult s (.fatalError (.unimplemented s.ir))
  | undefinedDispatch : LogicalResult s (.fatalError (.undefinedDispatch s.ir))
  | amUnimplemented (ha : s.am ≠ 0b00#2) : LogicalResult s (.fatalError (.amUnimplemented s.am))

theorem LogicalEffect.logicalResult (e : LogicalEffect s i t) (hr : t.result = some r) : LogicalResult s r := by
  cases e
  case setIrRejected v hv => cases hr; exact .irOutOfRange v (BitVec.not_le.mp hv)
  case entryModeRejected v hv => cases hr; exact .amInvalid v hv
  case writeCgramFatal v ha => cases hr; exact .amUnimplemented ha
  case unimplemented => cases hr; exact .unimplemented
  case undefined => cases hr; exact .undefinedDispatch
  all_goals cases hr; exact .ok

/-- The causes are read from the registers, so the latch that a completed pair drains plays no part. -/
theorem LogicalResult.of_registers (h : LogicalResult u r) (hreg : u.registers = s.registers) : LogicalResult s r := by
  have hir : u.ir = s.ir := (congrArg State.ir hreg :)
  have ham : u.am = s.am := (congrArg State.am hreg :)
  have hparams : u.params = s.params := (congrArg State.params hreg :)
  cases h with
  | ok => exact .ok
  | irOutOfRange v hv => exact .irOutOfRange v hv
  | amInvalid v hv => exact .amInvalid v (hparams ▸ hv)
  | unimplemented => rw [hir]; exact .unimplemented
  | undefinedDispatch => rw [hir]; exact .undefinedDispatch
  | amUnimplemented ha => rw [ham] at ha ⊢; exact .amUnimplemented ha

/-- R140 and R141 for the result `r` of transaction `i` on `s`. -/
structure ResultRule (s : State) (i : Instr) (r : Result) : Prop where
  unmapped : r.code = 1 ↔ ∃ access offset, i = .unmapped access offset
  stubRead : r.code ≠ 2
  stubWrite : r.code = 3 ↔ (∃ value, i = .wrStatus value) ∧ s.params.statusWritePolicy = .stubNoEffect
  violation : ∀ c, r = .contractViolation c →
    (∃ v, c = .irOutOfRange v ∧ 0x12#16 < v) ∨
    (∃ v, c = .amInvalid v ∧ v.extractLsb' s.params.layout.am 2 = 0b11#2)
  fatal : ∀ c, r = .fatalError c →
    c = .unimplemented s.ir ∨ c = .undefinedDispatch s.ir ∨ (c = .amUnimplemented s.am ∧ s.am ≠ 0b00#2) ∨
    (c = .dataRead ∧ i = .rdData) ∨
    (c = .statusWrite ∧ (∃ value, i = .wrStatus value) ∧ s.params.statusWritePolicy = .fatal)

/-- A transaction on neither Control/status nor an unmapped offset that returns a logical write's result. -/
theorem LogicalResult.resultRule (h : LogicalResult s r) (hu : ∀ access offset, i ≠ .unmapped access offset)
    (hw : ∀ value, i ≠ .wrStatus value) : ResultRule s i r := by
  have hcode : r.code ≠ 1 ∧ r.code ≠ 2 ∧ r.code ≠ 3 := by cases h <;> simp [Result.code]
  obtain ⟨h1, h2, h3⟩ := hcode
  refine ⟨iff_of_false h1 fun ⟨access, offset, hi⟩ => hu access offset hi, h2,
    iff_of_false h3 fun ⟨⟨value, hi⟩, _⟩ => hw value hi, fun c hc => ?_, fun c hc => ?_⟩
  · cases h with
    | irOutOfRange v hv => cases hc; exact .inl ⟨v, rfl, hv⟩
    | amInvalid v hv => cases hc; exact .inr ⟨v, rfl, hv⟩
    | _ => cases hc
  · cases h with
    | unimplemented => cases hc; exact .inl rfl
    | undefinedDispatch => cases hc; exact .inr (.inl rfl)
    | amUnimplemented ha => cases hc; exact .inr (.inr (.inl ⟨rfl, ha⟩))
    | _ => cases hc

theorem RunsAs.ne_unmapped_wrStatus (h : RunsAs s i j u) :
    (∀ access offset, i ≠ .unmapped access offset) ∧ ∀ value, i ≠ .wrStatus value := by
  cases h with
  | logical i hi => exact ⟨fun _ _ h => (by rw [h] at hi; cases hi), fun _ h => (by rw [h] at hi; cases hi)⟩
  | wrCmd => exact ⟨fun _ _ => Instr.noConfusion, fun _ => Instr.noConfusion⟩
  | wrData => exact ⟨fun _ _ => Instr.noConfusion, fun _ => Instr.noConfusion⟩

theorem exec_resultRule (h : exec i s = .next t) (hr : t.result = some r) : ResultRule s i r := by
  cases effect_of_next h
  case runs j u hrun e =>
    obtain ⟨hu, hw⟩ := hrun.ne_unmapped_wrStatus
    exact ((e.logicalResult hr).of_registers hrun.registers).resultRule hu hw
  case wrCmdFirst | wrDataFirst =>
    cases hr
    exact LogicalResult.ok.resultRule (fun _ _ => Instr.noConfusion) fun _ => Instr.noConfusion
  case wrDataAbove =>
    cases hr
    exact LogicalResult.undefinedDispatch.resultRule (fun _ _ => Instr.noConfusion) fun _ => Instr.noConfusion
  case rdStatus | wrStatusStub | wrStatusFatal | rdCmd | rdData | unmapped =>
    cases hr
    constructor <;> simp_all [Result.code]

/-- Settles O44, from the rule of each transaction's result. -/
theorem resultsAndCausesOfEachKind : Obligations.ResultsAndCausesOfEachKind := by
  intro i s t r h hr
  obtain ⟨hunmapped, hstubRead, hstubWrite, hviolation, hfatal⟩ := exec_resultRule h hr
  exact ⟨hunmapped, hstubRead, hstubWrite, hviolation, hfatal⟩

end Sys2Proof.Machine
end

section
/-! PROOF of O25 to O29 (R117 to R120): the Address Counter's step, row by row and over the ring of valid words. -/

namespace Sys2Proof.Machine

/-! ## One step -/

/-- Settles O25: the clamp of D13 leaves no other column. -/
theorem addressCounterStepLandsOnValidColumns : Obligations.AddressCounterStepLandsOnValidColumns := by
  refine fun a d => ⟨acNext_lt a d, ?_⟩
  rw [acNext_eq]
  cases d with
  | increment => simp only [acRange, rowPitch, lastValidCol]; split <;> omega
  | decrement => simp only [acRange, rowPitch, lastValidCol]; split <;> omega

theorem acNext_increment_inside {r c : Nat} (hr : r < 132) (hc : c < 0x14) :
    acNext (r * 0x20 + c) .increment = r * 0x20 + c + 1 := by
  simp only [acNext_eq, acRange, rowPitch, lastValidCol]
  split <;> omega

/-- From the last valid column on, an increment goes to the start of the next row. -/
theorem acNext_increment_past {r c : Nat} (hc : 0x14 ≤ c) (hc' : c ≤ 0x1F) :
    acNext (r * 0x20 + c) .increment = (r + 1) % 132 * 0x20 := by
  simp only [acNext_eq, acRange, rowPitch, lastValidCol]
  split <;> omega

theorem acNext_decrement_inside {r c : Nat} (hr : r < 132) (hc : 0 < c) (hc' : c ≤ 0x14) :
    acNext (r * 0x20 + c) .decrement = r * 0x20 + c - 1 := by
  simp only [acNext_eq, acRange, rowPitch, lastValidCol]
  split <;> omega

theorem acNext_decrement_first (r : Nat) :
    acNext (r * 0x20) .decrement = (r + 131) % 132 * 0x20 + 0x14 := by
  simp only [acNext_eq, acRange, rowPitch, lastValidCol]
  split <;> omega

/-- From an invalid column, a decrement goes to the last valid column of the row. -/
theorem acNext_decrement_invalid {r c : Nat} (hr : r < 132) (hc : 0x15 ≤ c) (hc' : c ≤ 0x1F) :
    acNext (r * 0x20 + c) .decrement = r * 0x20 + 0x14 := by
  simp only [acNext_eq, acRange, rowPitch, lastValidCol]
  split <;> omega

/-- Settles O26, by the columns of a row. -/
theorem addressCounterStepInEveryRow : Obligations.AddressCounterStepInEveryRow :=
  fun _ hr => ⟨fun _ hc => acNext_increment_inside hr hc, acNext_increment_past (by omega) (by omega),
    fun _ hc hc' => acNext_decrement_inside hr hc hc', acNext_decrement_first _⟩

/-- Settles O27, by the direction. -/
theorem addressCounterStepFromInvalidColumn : Obligations.AddressCounterStepFromInvalidColumn :=
  fun _ _ hr hc hc' => ⟨acNext_increment_past (by omega) hc', acNext_decrement_invalid hr hc hc'⟩

/-! ## The ring of valid words (R119) -/

/-- The word indexes inside the store on a valid column (R46). -/
structure ValidWord (a : Nat) : Prop where
  lt : a < 0x1080
  col : a % 0x20 ≤ 0x14

theorem validRank_lt {a : Nat} (h : ValidWord a) : validRank a < 2772 := by
  obtain ⟨hlt, hcol⟩ := h
  simp only [validRank, rowPitch, visibleCols]
  omega

theorem validIndex_validRank {a : Nat} (h : ValidWord a) : validIndex (validRank a) = a := by
  have hcol := h.col
  simp only [validIndex, validRank, rowPitch, visibleCols]
  omega

theorem validRank_validIndex (k : Nat) : validRank (validIndex k) = k := by
  simp only [validIndex, validRank, rowPitch, visibleCols]
  omega

theorem validWord_validIndex {k : Nat} (hk : k < 2772) : ValidWord (validIndex k) := by
  constructor <;> simp only [validIndex, rowPitch, visibleCols] <;> omega

theorem validIndex_injective : Function.Injective validIndex :=
  Function.LeftInverse.injective validRank_validIndex

/-- On valid words, an increment is one place on in row order, in a ring of 2772. -/
theorem acNext_increment_validIndex (k : Nat) :
    acNext (validIndex k) .increment = validIndex ((k + 1) % 2772) := by
  simp only [acNext_eq, validIndex, acRange, rowPitch, lastValidCol, visibleCols]
  split <;> omega

/-- On valid words, a decrement is one place back. -/
theorem acNext_decrement_validIndex (k : Nat) :
    acNext (validIndex k) .decrement = validIndex ((k + 2771) % 2772) := by
  simp only [acNext_eq, validIndex, acRange, rowPitch, lastValidCol, visibleCols]
  split <;> omega

/-- Settles O28: one place on and one place back, in the ring. -/
theorem addressCounterStepsUndoEachOther : Obligations.AddressCounterStepsUndoEachOther := by
  intro a hlt hcol
  have ha : ValidWord a := ⟨hlt, hcol⟩
  have hk := validRank_lt ha
  rw [← validIndex_validRank ha]
  generalize validRank a = k at hk
  have hon : ((k + 1) % 2772 + 2771) % 2772 = k := by omega
  have hback : ((k + 2771) % 2772 + 1) % 2772 = k := by omega
  exact ⟨by rw [acNext_increment_validIndex, acNext_decrement_validIndex, hon],
    by rw [acNext_decrement_validIndex, acNext_increment_validIndex, hback]⟩

theorem iterate_increment {a : Nat} (ha : ValidWord a) (n : Nat) :
    (fun x => acNext x .increment)^[n] a = validIndex ((validRank a + n) % 2772) := by
  induction n with
  | zero => rw [Function.iterate_zero_apply, Nat.add_zero, Nat.mod_eq_of_lt (validRank_lt ha), validIndex_validRank ha]
  | succ n ih =>
    rw [Function.iterate_succ_apply', ih, acNext_increment_validIndex, Nat.mod_add_mod,
      Nat.add_assoc]

/-- Settles O29: `n` steps are `n` places on, and a place is reached again after each 2772. -/
theorem addressCounterVisitsEveryValidWord : Obligations.AddressCounterVisitsEveryValidWord := by
  intro a n hlt hcol
  have ha : ValidWord a := ⟨hlt, hcol⟩
  have hk := validRank_lt ha
  refine ⟨iterate_increment ha n, ?_⟩
  calc (fun x => acNext x .increment)^[n] a = a
    _ ↔ validIndex ((validRank a + n) % 2772) = validIndex (validRank a) := by
      rw [iterate_increment ha, validIndex_validRank ha]
    _ ↔ (validRank a + n) % 2772 = validRank a := validIndex_injective.eq_iff
    _ ↔ n % 2772 = 0 := by omega

end Sys2Proof.Machine
end

section
/-! PROOF of O31 (R47), and the rotation, the combine and the mask of a stored word bit by bit (R113 to R115). -/

namespace Sys2Proof.Machine

/-- `rotl16` is the library's rotation to the left (R8). -/
theorem rotl16_eq_rotateLeft (v : Word) (n : Nat) : rotl16 v n = v.rotateLeft n := rfl

/-- A rotation by `m` brings to bit `n` the bit `m` places below it, cyclically. -/
theorem getLsbD_rotl16 (v : Word) {m n : Nat} (hm : m < 16) (hn : n < 16) :
    (rotl16 v m).getLsbD n = v.getLsbD ((n + 16 - m) % 16) := by
  rw [rotl16_eq_rotateLeft, BitVec.getLsbD_rotateLeft, Nat.mod_eq_of_lt hm]
  by_cases h : n < m
  · have hpos : (n + 16 - m) % 16 = 16 - m + n := by omega
    simp [h, hpos]
  · have hpos : (n + 16 - m) % 16 = n - m := by omega
    simp [h, hn, hpos]

theorem two_mul_rt_lt (rt : BitVec 3) : 2 * rt.toNat < 16 := by
  have := rt.isLt
  omega

theorem getLsbD_rotateIn (rt : BitVec 3) (v : Word) {n : Nat} (hn : n < 16) :
    (rotateIn rt v).getLsbD n = v.getLsbD ((n + 16 - 2 * rt.toNat) % 16) :=
  getLsbD_rotl16 v (two_mul_rt_lt rt) hn

/-- Settles O31: both bits of field `j` are brought from field `k`. -/
theorem rotationMovesWholePixels : Obligations.RotationMovesWholePixels := by
  intro rt v k j hj
  apply BitVec.eq_of_getLsbD_eq
  intro b hb
  have hrt := rt.isLt
  have hk := k.isLt
  have hpos : (2 * j.val + b + 16 - 2 * rt.toNat) % 16 = 2 * k.val + b := by omega
  rw [pixelField, pixelField, BitVec.getLsbD_extractLsb', BitVec.getLsbD_extractLsb',
    getLsbD_rotateIn rt v (by omega), hpos]

/-- The combine operation of `LG` on one bit (R114; D35). -/
def combineBit (lg : BitVec 2) (old new : Bool) : Bool :=
  match lg.toNat with
  | 0 => new
  | 1 => old || new
  | 2 => old && new
  | _ => old != new

theorem getLsbD_combine (lg : BitVec 2) (old r : Word) (n : Nat) :
    (combine lg old r).getLsbD n = combineBit lg (old.getLsbD n) (r.getLsbD n) := by
  have hlg : lg = 0b00#2 ∨ lg = 0b01#2 ∨ lg = 0b10#2 ∨ lg = 0b11#2 := by revert lg; decide
  obtain rfl | rfl | rfl | rfl := hlg
  · rfl
  · exact BitVec.getLsbD_or
  · exact BitVec.getLsbD_and
  · exact BitVec.getLsbD_xor

/-- The mask on one bit (R113 (c)). -/
theorem getLsbD_mergeMask (wm old c : Word) {n : Nat} (hn : n < 16) :
    (mergeMask wm old c).getLsbD n = if wm.getLsbD n then old.getLsbD n else c.getLsbD n := by
  rw [mergeMask, BitVec.getLsbD_or, BitVec.getLsbD_and, BitVec.getLsbD_and, BitVec.getLsbD_not]
  cases wm.getLsbD n <;> simp [hn]

theorem mergeMask_allOnes (old c : Word) : mergeMask (BitVec.allOnes 16) old c = old := by
  rw [mergeMask, BitVec.and_allOnes, BitVec.not_allOnes, BitVec.and_zero, BitVec.or_zero]

theorem mergeMask_zero (old c : Word) : mergeMask 0#16 old c = c := by
  rw [mergeMask, BitVec.and_zero, BitVec.not_zero, BitVec.and_allOnes, BitVec.zero_or]

end Sys2Proof.Machine
end

section
/-! PROOF of O21 to O24 (R113 to R116): one video-RAM write. -/

namespace Sys2Proof.Machine

variable {s t : State}

/-! ## The write in the implemented advance mode and in the others -/

theorem State.direction_increment (h : s.id = s.params.idIncrement) : s.direction = .increment := if_pos h

theorem State.direction_decrement (h : s.id ≠ s.params.idIncrement) : s.direction = .decrement := if_neg h

theorem exec_dataWriteCgram_running (hr : s.halted = false) (ha : s.am = 0b00#2) (v : Word) :
    exec (.dataWriteCgram v) s = .next ({ s with
      vram := vramWrite s.vram s.ac.val (s.wordToStore v)
      ac := toVramIndex (acNext s.ac.val s.direction) }.reply .ok) := by
  rw [exec, execDataWriteCgram, whenRunning_running hr]
  exact congrArg Host.Outcome.next (if_pos ha)

theorem exec_dataWriteCgram_fatal (hr : s.halted = false) (ha : s.am ≠ 0b00#2) (v : Word) :
    exec (.dataWriteCgram v) s = .next ({ s with
      vram := vramWrite s.vram s.ac.val (s.wordToStore v) }.raiseFatal (.amUnimplemented s.am)) := by
  rw [exec, execDataWriteCgram, whenRunning_running hr]
  exact congrArg Host.Outcome.next (if_neg ha)

/-- The word is stored in every advance mode (D19). -/
theorem exec_dataWriteCgram_vram {v : Word} (h : exec (.dataWriteCgram v) s = .next t) :
    t.vram = vramWrite s.vram s.ac.val (s.wordToStore v) := by
  have hr := running_of_next h
  by_cases ha : s.am = 0b00#2
  · rw [exec_dataWriteCgram_running hr ha, Host.Outcome.next.injEq] at h
    rw [← h, State.reply_vram]
  · rw [exec_dataWriteCgram_fatal hr ha, Host.Outcome.next.injEq] at h
    rw [← h, State.raiseFatal_vram]

/-! ## The statements -/

/-- Settles O22: the stored word is read back, and each bit of it is taken apart. -/
theorem videoRamWriteBitByBit : Obligations.VideoRamWriteBitByBit := by
  intro s t v n hwf h hn
  rw [exec_dataWriteCgram_vram h, vramRead_write_same hwf, State.wordToStore, storedWord, getLsbD_mergeMask _ _ _ hn,
    getLsbD_combine, getLsbD_rotateIn _ _ hn]
  rfl

/-- Settles O21, by the word read back and the direction that `ID` gives. -/
theorem videoRamWriteStoresAndAdvances : Obligations.VideoRamWriteStoresAndAdvances := by
  intro s v hr hwf ha
  refine ⟨_, _, exec_dataWriteCgram_running hr ha v, vramRead_write_same hwf _ _,
    fun b hb => vramRead_write_other _ hb, fun hid => ?_, fun hid => ?_⟩
  · rw [toVramIndex_acNext_val, State.direction_increment hid]
  · rw [toVramIndex_acNext_val, State.direction_decrement hid]

/-- Settles O24: the fatal write stores as the other does. -/
theorem unimplementedAdvanceModeHaltsAfterTheStore : Obligations.UnimplementedAdvanceModeHaltsAfterTheStore :=
  fun _ v hr hwf ha => ⟨_, exec_dataWriteCgram_fatal hr ha v, vramRead_write_same hwf _ _,
    fun _ hb => vramRead_write_other _ hb⟩

/-- Settles O23: the stored word is the word that is there. -/
theorem fullMaskLeavesVideoRamUnchanged : Obligations.FullMaskLeavesVideoRamUnchanged := by
  intro s v hr hwf ha hwm
  refine ⟨toVramIndex (acNext s.ac.val s.direction), ?_, toVramIndex_acNext_val _ _⟩
  have hword : s.wordToStore v = vramRead s.vram s.ac.val := by
    rw [State.wordToStore, storedWord, hwm]
    exact mergeMask_allOnes _ _
  rw [exec_dataWriteCgram_running hr ha, hword, vramWrite_read hwf]
  rfl

end Sys2Proof.Machine
end

section
/-! PROOF of O30 (R113, R117, R167): a stream of video-RAM writes, word by word along the ring of valid words. -/

namespace Sys2Proof.Machine

variable {s : State} {v : Word} {ws : List Word} {m : Vram} {a : VramIndex}

/-- The index of the `k`-th valid word from `AC` on. -/
def State.streamIndex (s : State) (k : Nat) : Nat := validIndex ((validRank s.ac.val + k) % 2772)

/-- A block set up to stream: `AM` 0b00, increment, replace, no mask, `AC` on a valid word. -/
structure Streaming (s : State) : Prop where
  running : s.halted = false
  vram : s.vram.wf = true
  am : s.am = 0b00#2
  id : s.id = s.params.idIncrement
  lg : s.lg = 0b00#2
  wm : s.wm = 0x0000#16
  ac : ValidWord s.ac.val

/-- The block after one streamed word: the word rotated at `AC`, and `AC` one step on. -/
def State.afterWord (s : State) (v : Word) : State :=
  { s with
    vram := vramWrite s.vram s.ac.val (rotateIn s.rt v)
    ac := toVramIndex (acNext s.ac.val .increment) }.reply .ok

theorem Streaming.wordToStore (hs : Streaming s) (v : Word) : s.wordToStore v = rotateIn s.rt v := by
  rw [State.wordToStore, storedWord, hs.wm, mergeMask_zero, hs.lg]
  rfl

theorem Streaming.exec_dataWriteCgram (hs : Streaming s) (v : Word) :
    exec (.dataWriteCgram v) s = .next (s.afterWord v) := by
  rw [exec_dataWriteCgram_running hs.running hs.am, hs.wordToStore, State.direction_increment hs.id, State.afterWord]

theorem Streaming.writeWords_cons (hs : Streaming s) (v : Word) (ws : List Word) :
    writeWords (v :: ws) s = writeWords ws (s.afterWord v) := by
  rw [writeWords, hs.exec_dataWriteCgram]

/-! ## The places of the stream -/

theorem Streaming.streamIndex_zero (hs : Streaming s) : s.streamIndex 0 = s.ac.val := by
  rw [State.streamIndex, Nat.add_zero, Nat.mod_eq_of_lt (validRank_lt hs.ac), validIndex_validRank hs.ac]

theorem Streaming.afterWord_ac (hs : Streaming s) (v : Word) : (s.afterWord v).ac.val = s.streamIndex 1 := by
  rw [State.afterWord, State.reply_ac, toVramIndex_acNext_val, ← validIndex_validRank hs.ac,
    acNext_increment_validIndex]
  rfl

/-- After a word, the places are the next ones. -/
theorem Streaming.streamIndex_afterWord (hs : Streaming s) (v : Word) (k : Nat) :
    (s.afterWord v).streamIndex k = s.streamIndex (k + 1) := by
  rw [State.streamIndex, hs.afterWord_ac, State.streamIndex, validRank_validIndex, Nat.mod_add_mod, State.streamIndex]
  congr 2
  omega

/-- The first 2772 places are all different. -/
theorem State.streamIndex_zero_ne {k : Nat} (hk : k + 1 < 2772) : s.streamIndex 0 ≠ s.streamIndex (k + 1) := by
  intro h
  have := validIndex_injective h
  omega

theorem Streaming.afterWord (hs : Streaming s) (v : Word) : Streaming (s.afterWord v) where
  running := hs.running
  vram := vramWrite_wf hs.vram s.ac _
  am := hs.am
  id := hs.id
  lg := hs.lg
  wm := hs.wm
  ac := hs.afterWord_ac v ▸ validWord_validIndex (Nat.mod_lt _ (by decide))

/-! ## What a stream leaves -/

/-- `m` and `a` are video RAM and `AC` after the words `ws` streamed from `s`. -/
structure Filled (ws : List Word) (s : State) (m : Vram) (a : VramIndex) : Prop where
  ac : a.val = s.streamIndex ws.length
  words : ∀ k (hk : k < ws.length), vramRead m (s.streamIndex k) = rotateIn s.rt (ws[k]'hk)
  others : ∀ b, (∀ k, k < ws.length → b ≠ s.streamIndex k) → vramRead m b = vramRead s.vram b

theorem Streaming.filled_nil (hs : Streaming s) : Filled [] s s.vram s.ac :=
  ⟨hs.streamIndex_zero.symm, fun k hk => absurd hk (Nat.not_lt_zero k), fun _ _ => rfl⟩

/-- A word before a stream: no later word of at most 2772 lands on its place. -/
theorem Streaming.filled_cons (hs : Streaming s) (hlen : ws.length < 2772) (h : Filled ws (s.afterWord v) m a) :
    Filled (v :: ws) s m a where
  ac := h.ac.trans (hs.streamIndex_afterWord v _)
  words := by
    rintro (_ | k) hk
    · have hfirst : ∀ k, k < ws.length → s.streamIndex 0 ≠ (s.afterWord v).streamIndex k := fun k hk =>
        hs.streamIndex_afterWord v k ▸ State.streamIndex_zero_ne (by omega)
      rw [h.others _ hfirst, hs.streamIndex_zero]
      exact vramRead_write_same hs.vram _ _
    · rw [← hs.streamIndex_afterWord v]
      exact h.words k (Nat.lt_of_succ_lt_succ hk)
  others := by
    intro b hb
    have hrest : ∀ k, k < ws.length → b ≠ (s.afterWord v).streamIndex k := fun k hk =>
      hs.streamIndex_afterWord v k ▸ hb (k + 1) (Nat.succ_lt_succ hk)
    rw [h.others b hrest]
    exact vramRead_write_other _ (hs.streamIndex_zero ▸ hb 0 (Nat.zero_lt_succ _))

theorem writeWords_filled (hs : Streaming s) (hlen : (v :: ws).length ≤ 2772) :
    ∃ m a, writeWords (v :: ws) s = .next { s with vram := m, ac := a, result := some .ok } ∧
      Filled (v :: ws) s m a := by
  induction ws generalizing v s with
  | nil => exact ⟨_, _, hs.writeWords_cons v [], hs.filled_cons (by decide) (hs.afterWord v).filled_nil⟩
  | cons w ws ih =>
    obtain ⟨m, a, hwrite, hfilled⟩ := ih (v := w) (hs.afterWord v) (Nat.le_of_succ_le hlen)
    exact ⟨m, a, (hs.writeWords_cons v _).trans hwrite, hs.filled_cons hlen hfilled⟩

/-- Settles O30, by induction on the words. -/
theorem streamedWordsFillTheValidWords : Obligations.StreamedWordsFillTheValidWords := by
  intro ws s hne hlen hr hwf ha hid hlg hwm hcol
  have hs : Streaming s := ⟨hr, hwf, ha, hid, hlg, hwm, ⟨s.ac.isLt, hcol⟩⟩
  obtain ⟨v, ws, rfl⟩ := List.exists_cons_of_ne_nil hne
  obtain ⟨m, a, hwrite, hac, hwords, hothers⟩ := writeWords_filled hs hlen
  exact ⟨m, a, hwrite, hac, hwords, hothers⟩

end Sys2Proof.Machine
end

section
/-! PROOF of O42, O43 and O50 (R84, R91, R61, R62): the two bytes of a pair as two steps, and a placed code as the
step that runs it. -/

namespace Sys2Proof.Machine

variable {s t : State} {i : Instr}

/-! ## The write latches through the other updates -/

theorem State.writeLatch_with_pending (s : State) (events : List Event) (l : LatchReg) :
    State.writeLatch { s with pending := events } l = s.writeLatch l := by
  cases l <;> rfl

theorem State.writeLatch_reply (s : State) (r : Result) (l : LatchReg) : (s.reply r).writeLatch l = s.writeLatch l := by
  cases l <;> rfl

theorem State.writeLatch_raiseFatal (s : State) (c : Cause) (l : LatchReg) :
    (s.raiseFatal c).writeLatch l = s.writeLatch l := by
  cases l <;> rfl

/-- A logical write leaves the governing latches alone. -/
theorem LogicalFrame.writeLatch (f : LogicalFrame s t) (l : LatchReg) : t.writeLatch l = s.writeLatch l := by
  cases l <;> simp only [State.writeLatch, f.params, f.wlCmd, f.wlData, f.wl]

/-! ## The completing byte (R84) -/

/-- The byte that completes a Command pair leaves the latches as the drain did. -/
theorem exec_wrCmd_completed {value : BusWord} (hl : s.writeLatch .command ≠ none)
    (h : exec (.wrCmd value) s = .next t) (l : LatchReg) :
    t.writeLatch l = (s.setWriteLatch .command none).writeLatch l := by
  obtain ⟨-, ⟨hempty, -⟩ | ⟨b, -, h⟩⟩ := exec_wrCmd_cases h
  · exact absurd hempty hl
  · exact (logicalFrame_of_next rfl h).writeLatch l

/-- The byte that completes a Data pair leaves the latches as the drain did. -/
theorem exec_wrData_completed {value : BusWord} (hl : s.writeLatch .data ≠ none)
    (h : exec (.wrData value) s = .next t) (l : LatchReg) :
    t.writeLatch l = (s.setWriteLatch .data none).writeLatch l := by
  obtain ⟨-, ⟨hempty, -⟩ | ⟨b, -, -, h⟩ | ⟨b, -, -, rfl⟩⟩ := exec_wrData_cases h
  · exact absurd hempty hl
  · exact (logicalFrame_of_next (isLogical_decodeData _ _) h).writeLatch l
  · exact State.writeLatch_raiseFatal _ _ l

/-- Settles O42, from what the drain leaves. -/
theorem completingByteEmptiesItsLatch : Obligations.CompletingByteEmptiesItsLatch := by
  refine fun s value hr => ⟨fun hl => ?_, fun hl => ?_⟩
  · obtain ⟨t, h⟩ := exec_running (.wrCmd value) hr
    exact ⟨t, h, (exec_wrCmd_completed hl h _).trans (writeLatch_setWriteLatch s _ _), fun hp =>
      (exec_wrCmd_completed hl h _).trans (writeLatch_setWriteLatch_other hp LatchReg.noConfusion _)⟩
  · obtain ⟨t, h⟩ := exec_running (.wrData value) hr
    exact ⟨t, h, (exec_wrData_completed hl h _).trans (writeLatch_setWriteLatch s _ _), fun hp =>
      (exec_wrData_completed hl h _).trans (writeLatch_setWriteLatch_other hp LatchReg.noConfusion _)⟩

/-! ## The two bytes as steps -/

variable {b h : Byte} {rest : List Event}

@[simp] theorem byteOf_setWidth (b : Byte) : byteOf (b.setWidth 32) = b := by
  ext n hn
  have hn32 : n < 32 := by omega
  simp [byteOf, hn, hn32]

/-- The block between the two bytes of a pair. -/
def State.betweenBytes (s : State) (l : LatchReg) (b : Byte) (events : List Event) : State :=
  (State.setWriteLatch { s with pending := events } l (some b)).reply .ok

section
variable (s : State) (l : LatchReg) (b : Byte) (events : List Event)

@[simp] theorem State.betweenBytes_halted : (s.betweenBytes l b events).halted = s.halted := by
  simp [State.betweenBytes]

@[simp] theorem State.betweenBytes_ir : (s.betweenBytes l b events).ir = s.ir := by
  simp [State.betweenBytes]

@[simp] theorem State.betweenBytes_pending : (s.betweenBytes l b events).pending = events := by
  simp [State.betweenBytes]

@[simp] theorem State.betweenBytes_writeLatch : (s.betweenBytes l b events).writeLatch l = some b := by
  rw [State.betweenBytes, State.writeLatch_reply, writeLatch_setWriteLatch]

/-- Latching a byte in an empty latch and draining it leaves only the first byte's result. -/
theorem State.drain_betweenBytes {s : State} {l : LatchReg} (hl : s.writeLatch l = none) (b : Byte)
    (events rest : List Event) :
    State.setWriteLatch { s.betweenBytes l b events with pending := rest } l none =
      { s with pending := rest, result := some .ok } := by
  cases hp : s.params.latchSharing <;> cases l <;>
    simp_all [State.betweenBytes, State.setWriteLatch, State.writeLatch, State.reply]

end

theorem step_wrCmd_first (hr : s.halted = false) (hl : s.writeLatch .command = none)
    (hp : s.pending = .bus ⟨.write (b.setWidth 32), 0x8⟩ :: rest) :
    step s = .next (s.betweenBytes .command b rest) := by
  have hl' := (State.writeLatch_with_pending s rest .command).trans hl
  rw [step_bus hp, decodeBus_wrCmd, exec_wrCmd_first (s := { s with pending := rest }) hr hl', byteOf_setWidth,
    State.betweenBytes]

theorem step_wrCmd_second (hr : s.halted = false) (hl : s.writeLatch .command = some h)
    (hp : s.pending = .bus ⟨.write (b.setWidth 32), 0x8⟩ :: rest) :
    step s = exec (.setIr (bytePair h b)) (State.setWriteLatch { s with pending := rest } .command none) := by
  have hl' := (State.writeLatch_with_pending s rest .command).trans hl
  rw [step_bus hp, decodeBus_wrCmd, exec_wrCmd_second (s := { s with pending := rest }) hr hl', byteOf_setWidth]

theorem step_wrData_first (hr : s.halted = false) (hl : s.writeLatch .data = none)
    (hp : s.pending = .bus ⟨.write (b.setWidth 32), 0x10⟩ :: rest) :
    step s = .next (s.betweenBytes .data b rest) := by
  have hl' := (State.writeLatch_with_pending s rest .data).trans hl
  rw [step_bus hp, decodeBus_wrData, exec_wrData_first (s := { s with pending := rest }) hr hl', byteOf_setWidth,
    State.betweenBytes]

theorem step_wrData_second (hr : s.halted = false) (hl : s.writeLatch .data = some h) (hir : s.ir ≤ 0x12#16)
    (hp : s.pending = .bus ⟨.write (b.setWidth 32), 0x10⟩ :: rest) :
    step s =
      exec (decodeData s.ir.toNat (bytePair h b)) (State.setWriteLatch { s with pending := rest } .data none) := by
  have hl' := (State.writeLatch_with_pending s rest .data).trans hl
  rw [step_bus hp, decodeBus_wrData, exec_wrData_second (s := { s with pending := rest }) hr hl' hir, byteOf_setWidth]

/-! ## Two bytes are the logical write (R91) -/

/-- A logical write does not look at the last result: it replaces it. -/
theorem exec_with_result (hi : isLogical i = true) (o : Option Result) : exec i { s with result := o } = exec i s := by
  cases i
  case rdStatus | wrStatus | rdCmd | wrCmd | rdData | wrData | unmapped => cases hi
  all_goals rfl

/-- Settles O43: the second byte runs the logical write on the block before the first, but for the result, which the
logical write replaces. -/
theorem bytePairEqualsLogicalWrite : Obligations.BytePairEqualsLogicalWrite := by
  refine ⟨fun s v rest hr hl hp => ?_, fun s v rest hr hl hir hp => ?_⟩
  · refine ⟨_, step_wrCmd_first hr hl hp, ?_⟩
    rw [step_wrCmd_second (h := highByte v) (b := lowByte v) (rest := rest) (by simpa using hr) (by simp)
      (by simp; rfl), bytePair_bytes, State.drain_betweenBytes hl]
    exact exec_with_result (s := { s with pending := rest }) rfl _
  · refine ⟨_, decodeData s.ir.toNat v, step_wrData_first hr hl hp, decode_dataWord s.ir v hir, ?_⟩
    rw [step_wrData_second (h := highByte v) (b := lowByte v) (rest := rest) (by simpa using hr) (by simp)
      (by simpa using hir) (by simp; rfl), bytePair_bytes, State.drain_betweenBytes hl, State.betweenBytes_ir]
    exact exec_with_result (s := { s with pending := rest }) (isLogical_decodeData _ _) _

/-! ## A placed code -/

theorem step_placeCode_bus {tr : BusTransaction} {key : BusWord} (hkey : busKey tr = some key) (s : State) :
    step (placeCode (.bus key tr.access.value) s) = exec (decodeBus tr) s := by
  rw [placeCode, keyTransaction_of_busKey hkey]
  rfl

/-- The place of a Command word: its first byte latched, its second the next write. -/
theorem placeCode_commandWord (v : Word) (s : State) :
    placeCode (.logical (commandWord v)) s = { s.setWriteLatch .command (some (highByte v)) with
      pending := .bus ⟨.write ((lowByte v).setWidth 32), 0x8⟩ :: s.pending } := by
  simp only [placeCode, if_pos (wordReg_commandWord v), wordValue_commandWord]

/-- The place of a Data word: the same, with `IR` the word's `IRX`. -/
theorem placeCode_dataWord {ir : Word} (hir : ir ≤ 0x12#16) (v : Word) (s : State) :
    placeCode (.logical (dataWord ir v)) s = { s.setWriteLatch .data (some (highByte v)) with
      ir := ir
      pending := .bus ⟨.write ((lowByte v).setWidth 32), 0x10⟩ :: s.pending } := by
  have hreg : ¬ wordReg (dataWord ir v) = 0b01#2 := by rw [wordReg_dataWord]; decide
  simp only [placeCode, if_neg hreg, if_pos (wordReg_dataWord ir v), wordValue_dataWord, setWidth_wordIrx_dataWord hir]

/-- Placing a first byte and draining it leaves the latch drained. -/
theorem State.drain_placed (s : State) (l : LatchReg) (o : Option Byte) :
    State.setWriteLatch { s.setWriteLatch l o with pending := s.pending } l none = s.setWriteLatch l none := by
  cases hp : s.params.latchSharing <;> cases l <;> simp [State.setWriteLatch, hp]

theorem State.drain_placed_ir (s : State) (l : LatchReg) (o : Option Byte) (ir : Word) :
    State.setWriteLatch { s.setWriteLatch l o with ir := ir, pending := s.pending } l none =
      { s.setWriteLatch l none with ir := ir } := by
  cases hp : s.params.latchSharing <;> cases l <;> simp [State.setWriteLatch, hp]

theorem step_placeCode_commandWord (hr : s.halted = false) (v : Word) :
    step (placeCode (.logical (commandWord v)) s) = exec (.setIr v) (s.setWriteLatch .command none) := by
  have hlatch : ((s.setWriteLatch .command (some (highByte v)))).writeLatch .command = some (highByte v) :=
    writeLatch_setWriteLatch s _ _
  rw [placeCode_commandWord, step_wrCmd_second (h := highByte v) (b := lowByte v) (rest := s.pending)
    (by simpa using hr) ((State.writeLatch_with_pending _ _ _).trans hlatch) rfl, bytePair_bytes]
  exact congrArg (exec _) (State.drain_placed s _ _)

theorem step_placeCode_dataWord (hr : s.halted = false) {ir : Word} (hir : ir ≤ 0x12#16) (v : Word) :
    step (placeCode (.logical (dataWord ir v)) s) =
      exec (decodeData ir.toNat v) { s.setWriteLatch .data none with ir := ir } := by
  have hlatch : ((s.setWriteLatch .data (some (highByte v)))).writeLatch .data = some (highByte v) :=
    writeLatch_setWriteLatch s _ _
  generalize hp : placeCode (.logical (dataWord ir v)) s = p
  rw [placeCode_dataWord hir] at hp
  have hrun : p.halted = false := by rw [← hp, State.setWriteLatch_halted, hr]
  have hpir : p.ir = ir := by rw [← hp]
  rw [step_wrData_second (h := highByte v) (b := lowByte v) (rest := s.pending) hrun (by rw [← hp]; exact hlatch)
    (by rw [hpir]; exact hir) (by rw [← hp]), bytePair_bytes, hpir, ← hp]
  exact congrArg (exec _) (State.drain_placed_ir s _ _ ir)

/-- Settles O50, by the format of the code. -/
theorem stepRunsThePlacedCode : Obligations.StepRunsThePlacedCode := by
  intro s i c hr hw hcode
  cases hi : isLogical i with
  | false =>
    obtain ⟨tr, rfl⟩ := exists_decodeBus_eq hi hw
    rw [encode_decodeBus, Option.map_eq_some_iff] at hcode
    obtain ⟨key, hkey, rfl⟩ := hcode
    exact step_placeCode_bus hkey s
  | true =>
    obtain ⟨v, rfl⟩ | ⟨ir, v, hir, rfl⟩ := isLogical_cases hi
    · obtain rfl := Option.some.inj hcode
      exact (step_placeCode_commandWord hr v).trans (if_pos (wordReg_commandWord v)).symm
    · obtain rfl := Option.some.inj ((encode_decodeData hir v).symm.trans hcode)
      have hreg : ¬ wordReg (dataWord ir v) = 0b01#2 := by rw [wordReg_dataWord]; decide
      refine (step_placeCode_dataWord hr hir v).trans (Eq.trans ?_ (if_neg hreg).symm)
      rw [setWidth_wordIrx_dataWord hir]

end Sys2Proof.Machine
end

section
/-! PROOF of O4 (R82, R95): the two reads of a Command pair as two steps. -/

namespace Sys2Proof.Machine

variable {s : State} {rest : List Event}

/-- Two Command reads from an empty read latch answer the high and the low byte of one value. -/
theorem step_rdCmd_pair (hr : s.halted = false) (hl : s.rlCmd = none)
    (hp : s.pending = busEvents (Pseudo.expand .rd16Cmd) ++ rest) :
    ∃ m t, step s = .next m ∧ step m = .next t ∧ t.rlCmd = none ∧ t.pending = rest ∧
      m.result = some (.okValue (readReply (highByte (cmdReadValue s)))) ∧
      t.result = some (.okValue (readReply (lowByte (cmdReadValue s)))) := by
  have hread := commandReadReturnsHighByteThenLatchedLow.2
  have hdecode := fun u => congrArg (exec · u) decodeBus_rdCmd
  obtain ⟨-, hfirst, -⟩ := hread { s with pending := .bus ⟨.read, 0x8⟩ :: rest } hr
  obtain ⟨hsecond, -⟩ := hread { s with
    pending := rest
    rlCmd := some (lowByte (cmdReadValue s))
    result := some (.okValue (readReply (highByte (cmdReadValue s)))) } hr
  exact ⟨_, _, (step_bus hp).trans ((hdecode _).trans (hfirst hl)),
    (step_bus rfl).trans ((hdecode _).trans (hsecond _ rfl)), rfl, rfl, rfl, rfl⟩

/-- A field of at most 8 bits goes whole into a byte. -/
theorem setWidth_byte_setWidth {n : Nat} (x : BitVec n) (hn : n ≤ 8) (w : Nat) :
    (x.setWidth 8).setWidth w = x.setWidth w := by
  apply BitVec.eq_of_toNat_eq
  have hx : x.toNat < 2 ^ 8 := Nat.lt_of_lt_of_le x.isLt (Nat.pow_le_pow_right (by decide) hn)
  rw [BitVec.toNat_setWidth, BitVec.toNat_setWidth, Nat.mod_eq_of_lt hx, BitVec.toNat_setWidth]

theorem cmdReadValue_ct (h : s.params.cmdReadSource = .ct) : cmdReadValue s = bytePair 0#8 (s.ct.setWidth 8) := by
  rw [bytePair, setWidth_byte_setWidth s.ct (by decide)]
  simp [cmdReadValue, h]

/-- At the default positions the image is `VR` in the high byte and `CT` in the low byte (R66, R95). -/
theorem cmdReadValue_contrastImage (h : s.params.cmdReadSource = .contrastImage) (hvr : s.params.layout.vr = 8)
    (hct : s.params.layout.ct = 0) : cmdReadValue s = bytePair (s.vr.setWidth 8) (s.ct.setWidth 8) := by
  rw [bytePair, setWidth_byte_setWidth s.vr (by decide), setWidth_byte_setWidth s.ct (by decide)]
  simp [cmdReadValue, h, hvr, hct]

theorem readReply_setWidth {n : Nat} (x : BitVec n) (hn : n ≤ 8) : readReply (x.setWidth 8) = x.setWidth 32 :=
  setWidth_byte_setWidth x hn 32

/-- Settles O4, from the value of each source. -/
theorem commandReadPairReturnsTheContrastField : Obligations.CommandReadPairReturnsTheContrastField := by
  intro s rest hr hl hp
  obtain ⟨m, t, hm, ht, hlatch, hrest, hhigh, hlow⟩ := step_rdCmd_pair hr hl hp
  refine ⟨m, t, hm, ht, hlatch, hrest, fun hct => ?_, fun himage => ?_, fun himage hvr hct => ?_⟩
  · rw [hhigh, hlow, cmdReadValue_ct hct, highByte_bytePair, lowByte_bytePair, readReply_setWidth s.ct (by decide)]
    exact ⟨rfl, rfl⟩
  · rw [hhigh, hlow, cmdReadValue, himage]
    exact ⟨rfl, rfl⟩
  · rw [hhigh, hlow, cmdReadValue_contrastImage himage hvr hct, highByte_bytePair, lowByte_bytePair,
      readReply_setWidth s.vr (by decide), readReply_setWidth s.ct (by decide)]
    exact ⟨rfl, rfl⟩

end Sys2Proof.Machine
end

section
/-! PROOF of O7 (R88) and O10 (R42): the one latch of both registers, and the byte of a write. -/

namespace Sys2Proof.Machine

variable {s : State}

/-! ## One latch for both registers -/

theorem State.writeLatch_shared (h : s.params.latchSharing = .shared) (l : LatchReg) : s.writeLatch l = s.wl := by
  cases l <;> simp [State.writeLatch, h]

/-- Settles O7: each byte finds the one latch, whichever register it is written to. -/
theorem sharedLatchPairsAcrossRegisters : Obligations.SharedLatchPairsAcrossRegisters := by
  intro s value hr hshared
  have hlatch := fun l => State.writeLatch_shared hshared l
  have hset := fun l o => State.setWriteLatch_shared s l o hshared
  refine ⟨fun hl => ⟨?_, ?_⟩, fun h hl => ?_, fun h hl hir => ?_⟩
  · rw [exec_wrCmd_first hr ((hlatch _).trans hl), hset]
    rfl
  · rw [exec_wrData_first hr ((hlatch _).trans hl), hset]
    rfl
  · rw [exec_wrCmd_second hr ((hlatch _).trans hl), hset]
    rfl
  · rw [exec_wrData_second hr ((hlatch _).trans hl) hir, hset]
    rfl

/-! ## Bits 31 to 8 of a write -/

theorem latchWrite_congr {l : LatchReg} {value value' : BusWord} (h : byteOf value = byteOf value') (s : State)
    (k : Word → State → Host.Outcome State Fault Refusal) : latchWrite l value s k = latchWrite l value' s k := by
  rw [latchWrite, latchWrite, h]

/-- Settles O10: a write of Control/status looks at no bit of the value, a latched write at its byte alone. -/
theorem upperWriteBitsAreIgnored : Obligations.UpperWriteBitsAreIgnored :=
  fun s _ _ h => ⟨rfl, congrArg (whenRunning s) (latchWrite_congr h s _),
    congrArg (whenRunning s) (latchWrite_congr h s _)⟩

end Sys2Proof.Machine
end

section
/-! PROOF of O48 (R40): `probe` and the decoder agree on what is no register. -/

namespace Sys2Proof.Machine

theorem probe_eq_unmapped_iff {offset : Nat} : probe offset = .unmapped ↔ isRegisterOffset offset = false := by
  by_cases h0 : offset = 0x0
  · simp [probe, isRegisterOffset, h0]
  by_cases h8 : offset = 0x8
  · simp [probe, isRegisterOffset, h8]
  by_cases h10 : offset = 0x10
  · simp [probe, isRegisterOffset, h10]
  simp [probe, isRegisterOffset, h0, h8, h10]

theorem decodeBus_eq_unmapped_iff {access : Access} {offset : Nat} :
    decodeBus ⟨access, offset⟩ = .unmapped access offset ↔ isRegisterOffset offset = false := by
  refine ⟨fun h => ?_, decodeBus_unmapped⟩
  have hw := wellFormed_decodeBus ⟨access, offset⟩
  rw [h, Instr.wellFormed, Bool.not_eq_true'] at hw
  exact hw

/-- Settles O48: both say `Unmapped` exactly off the three registers. -/
theorem probeAgreesWithTheAccess : Obligations.ProbeAgreesWithTheAccess :=
  fun _ _ => ⟨rfl, rfl, rfl, probe_eq_unmapped_iff.trans decodeBus_eq_unmapped_iff.symm⟩

end Sys2Proof.Machine
end

section
/-! PROOF of O59 (R7, R36, R141): a transaction commutes with a change of `LCD_BASE` and `SEVERITY`. -/

namespace Sys2Proof.Machine

variable {s : State} {base : Nat} {severity : SeverityTable}

@[simp] theorem State.relabel_statusWritePolicy :
    (s.relabel base severity).params.statusWritePolicy = s.params.statusWritePolicy := rfl

/-- The check for a halted block commutes with the change if what it guards does. -/
theorem whenRunning_relabel {o o' : Host.Outcome State Fault Refusal}
    (h : mapNext (State.relabel base severity) o = o') :
    whenRunning (s.relabel base severity) o' = mapNext (State.relabel base severity) (whenRunning s o) := by
  cases hr : s.halted with
  | true => rw [whenRunning_halted hr, whenRunning_halted (s := s.relabel base severity) hr]; rfl
  | false => rw [whenRunning_running hr, whenRunning_running (s := s.relabel base severity) hr, h]

theorem exec_relabel_of_logical {i : Instr} (hi : isLogical i = true) :
    exec i (s.relabel base severity) = mapNext (State.relabel base severity) (exec i s) := by
  cases i
  case setIr | dataEntryMode | dataWriteCgram =>
    exact whenRunning_relabel (congrArg Host.Outcome.next (apply_ite (State.relabel base severity) _ _ _))
  case rdStatus | wrStatus | rdCmd | wrCmd | rdData | wrData | unmapped => cases hi
  all_goals exact whenRunning_relabel rfl

theorem dataDispatch_relabel (v : Word) (s : State) :
    dataDispatch v (s.relabel base severity) = mapNext (State.relabel base severity) (dataDispatch v s) := by
  by_cases hir : s.ir ≤ 0x12#16
  · rw [dataDispatch_eq_exec v hir, dataDispatch_eq_exec (s := s.relabel base severity) v hir]
    exact exec_relabel_of_logical (isLogical_decodeData _ _)
  · rw [dataDispatch_above v hir, dataDispatch_above (s := s.relabel base severity) v hir]
    exact whenRunning_relabel rfl

/-- A byte-latched write commutes with the change if its logical write does. -/
theorem latchWrite_relabel {k : Word → State → Host.Outcome State Fault Refusal}
    (hk : ∀ v u, k v (State.relabel base severity u) = mapNext (State.relabel base severity) (k v u)) (l : LatchReg)
    (value : BusWord) :
    latchWrite l value (s.relabel base severity) k =
      mapNext (State.relabel base severity) (latchWrite l value s k) := by
  have hlatch := State.relabel_writeLatch (s := s) (base := base) (severity := severity) l
  cases hl : s.writeLatch l with
  | none =>
    rw [latchWrite_first hl, latchWrite_first (hlatch.trans hl), State.relabel_setWriteLatch]
    rfl
  | some b => rw [latchWrite_second hl, latchWrite_second (hlatch.trans hl), State.relabel_setWriteLatch, hk]

theorem exec_relabel (i : Instr) :
    exec i (s.relabel base severity) = mapNext (State.relabel base severity) (exec i s) := by
  cases hi : isLogical i with
  | true => exact exec_relabel_of_logical hi
  | false =>
    cases i
    case rdStatus | rdData | unmapped => exact whenRunning_relabel rfl
    case wrStatus =>
      refine whenRunning_relabel (congrArg Host.Outcome.next ?_)
      cases h : s.params.statusWritePolicy <;> simp only [State.relabel_statusWritePolicy, h] <;> rfl
    case rdCmd =>
      refine whenRunning_relabel (congrArg Host.Outcome.next ?_)
      cases h : s.rlCmd <;> simp only [State.relabel_rlCmd, h] <;> rfl
    case wrCmd =>
      exact whenRunning_relabel (latchWrite_relabel (fun v u => exec_relabel_of_logical (i := .setIr v) rfl) _ _).symm
    case wrData => exact whenRunning_relabel (latchWrite_relabel dataDispatch_relabel _ _).symm
    all_goals cases hi

/-- Settles O59, by the next access. -/
theorem baseAddressAndSeverityAreUnobservable : Obligations.BaseAddressAndSeverityAreUnobservable := by
  intro s base severity
  rcases hp : s.pending with _ | ⟨tr | _ | _, rest⟩
  · rw [step_idle hp, step_idle (s := s.relabel base severity) hp]
    rfl
  · rw [step_bus hp, step_bus (s := s.relabel base severity) hp]
    exact exec_relabel (s := { s with pending := rest }) _
  · rw [step_snapshot hp, step_snapshot (s := s.relabel base severity) hp]
    rfl
  · rw [step_readInvert hp, step_readInvert (s := s.relabel base severity) hp]
    rfl

end Sys2Proof.Machine
end

section
/-! PROOF of O1, O2 and O8 (R80, R81, R86): the transactions on Control/status, and the read of Data. -/

namespace Sys2Proof.Machine

variable {s : State}

theorem exec_wrStatus_stub (hr : s.halted = false) (hp : s.params.statusWritePolicy = .stubNoEffect) (value : BusWord) :
    exec (.wrStatus value) s = .next (s.reply (.stubWrite .statusWrite)) := by
  rw [exec, execWrStatus, whenRunning_running hr, hp]

theorem exec_wrStatus_fatal (hr : s.halted = false) (hp : s.params.statusWritePolicy = .fatal) (value : BusWord) :
    exec (.wrStatus value) s = .next (s.raiseFatal .statusWrite) := by
  rw [exec, execWrStatus, whenRunning_running hr, hp]

/-- Settles O1: on a running block the read is a bare reply. -/
theorem statusReadReturnsStatusValue : Obligations.StatusReadReturnsStatusValue :=
  fun _ hr => whenRunning_running hr _

/-- Settles O2, by the policy. -/
theorem statusWriteFollowsPolicy : Obligations.StatusWriteFollowsPolicy :=
  fun _ value hr => ⟨fun hp => exec_wrStatus_stub hr hp value, fun hp => exec_wrStatus_fatal hr hp value⟩

/-- Settles O8: on a running block the read does nothing but raise the fatal error. -/
theorem dataReadHaltsTheBlock : Obligations.DataReadHaltsTheBlock :=
  fun _ hr => whenRunning_running hr _

end Sys2Proof.Machine
end

section
/-! PROOF of O12 to O17 and O20 (R98 to R103, R111): the configuration commands and RAM Address Set. -/

namespace Sys2Proof.Machine

variable {s : State}

/-! ## Each command on a running block, at any `FIELD_LAYOUT` -/

theorem exec_dataDriverOutput (hr : s.halted = false) (v : Word) :
    exec (.dataDriverOutput v) s = .next ({ s with
      cms := field v s.params.layout.cms 1
      sgs := field v s.params.layout.sgs 1
      nl := field v s.params.layout.nl 5 }.reply .ok) :=
  whenRunning_running hr _

theorem exec_dataContrast (hr : s.halted = false) (v : Word) :
    exec (.dataContrast v) s = .next ({ s with
      vr := field v s.params.layout.vr 3
      ct := field v s.params.layout.ct 7 }.reply .ok) :=
  whenRunning_running hr _

theorem exec_dataEntryMode (hr : s.halted = false) {v : Word} (hv : field v s.params.layout.am 2 ≠ 0b11#2) :
    exec (.dataEntryMode v) s = .next ({ s with
      id := field v s.params.layout.id 1
      am := field v s.params.layout.am 2
      lg := field v s.params.layout.lg 2 }.reply .ok) :=
  (whenRunning_running hr _).trans (congrArg Host.Outcome.next (if_neg hv))

theorem exec_dataEntryMode_rejected (hr : s.halted = false) {v : Word} (hv : field v s.params.layout.am 2 = 0b11#2) :
    exec (.dataEntryMode v) s = .next (s.reply (.contractViolation (.amInvalid v))) :=
  (whenRunning_running hr _).trans (congrArg Host.Outcome.next (if_pos hv))

theorem exec_dataRotation (hr : s.halted = false) (v : Word) :
    exec (.dataRotation v) s = .next ({ s with rt := field v s.params.layout.rt 3 }.reply .ok) :=
  whenRunning_running hr _

theorem exec_dataDisplayControl (hr : s.halted = false) (v : Word) :
    exec (.dataDisplayControl v) s = .next ({ s with
      spt := field v s.params.layout.spt 1
      gsh := field v s.params.layout.gsh 2
      gsl := field v s.params.layout.gsl 2
      rev := field v revPosition 1
      d := field v s.params.layout.d 1 }.reply .ok) :=
  whenRunning_running hr _

/-! ## The statements: the default layout is one of them -/

/-- Settles O12, at any layout and at the default one. -/
theorem driverOutputStoresItsFields : Obligations.DriverOutputStoresItsFields := by
  refine fun s v hr => ⟨exec_dataDriverOutput hr v, fun hlayout => ?_⟩
  rw [exec_dataDriverOutput hr, hlayout]
  rfl

/-- Settles O13, at any layout and at the default one. -/
theorem contrastStoresItsFields : Obligations.ContrastStoresItsFields := by
  refine fun s v hr => ⟨exec_dataContrast hr v, fun hlayout => ?_⟩
  rw [exec_dataContrast hr, hlayout]
  rfl

/-- Settles O14, at any layout and at the default one. -/
theorem entryModeStoresItsFields : Obligations.EntryModeStoresItsFields := by
  refine fun s v hr => ⟨exec_dataEntryMode hr, fun hlayout hv => ?_⟩
  rw [exec_dataEntryMode hr (by rw [hlayout]; exact hv), hlayout]
  rfl

/-- Settles O15: the rejected write only replies. -/
theorem entryModeRejectsInvalidAdvanceMode : Obligations.EntryModeRejectsInvalidAdvanceMode :=
  fun _ _ hr hv => exec_dataEntryMode_rejected hr hv

/-- Settles O16, at any layout and at the default one. -/
theorem rotationStoresItsField : Obligations.RotationStoresItsField := by
  refine fun s v hr => ⟨exec_dataRotation hr v, fun hlayout => ?_⟩
  rw [exec_dataRotation hr, hlayout]
  rfl

/-- Settles O17, at any layout and at the default one. -/
theorem displayControlStoresItsFields : Obligations.DisplayControlStoresItsFields := by
  refine fun s v hr => ⟨exec_dataDisplayControl hr v, fun hlayout => ?_⟩
  rw [exec_dataDisplayControl hr, hlayout]
  rfl

/-- Settles O20: the Data word of Index Register value 0x11, and the value reduced. -/
theorem ramAddressSetsAddressCounterModulo : Obligations.RamAddressSetsAddressCounterModulo :=
  ⟨fun v => decode_dataWord 0x11#16 v (by decide),
    fun _ v hr => ⟨toVramIndex v.toNat, toVramIndex_val _, whenRunning_running hr _⟩⟩

end Sys2Proof.Machine
end

section
/-! PROOF of O34, O45, O47 and O49 (R142, R131, R132, R134, R52): the halted block, the display port, and a step. -/

namespace Sys2Proof.Machine

theorem exec_halted {s : State} (hh : s.halted = true) (i : Instr) : exec i s = .fault .halted := by
  cases i <;> exact whenRunning_halted hh _

/-- Settles O34: every transaction begins with the check for a halted block, and the display port has none. -/
theorem haltedBlockTakesNoTransaction : Obligations.HaltedBlockTakesNoTransaction :=
  ⟨fun i _ hh => exec_halted hh i,
    fun s _ rest hh hp => (step_bus hp).trans (exec_halted (s := { s with pending := rest }) hh _),
    fun _ _ _ hp => step_snapshot hp⟩

/-- Settles O45, by the access. -/
theorem displayPortReadsBetweenTransactions : Obligations.DisplayPortReadsBetweenTransactions :=
  fun _ _ => ⟨step_snapshot, step_readInvert⟩

/-- Settles O47, by the value of `REV`. -/
theorem paletteIndexFollowsThePolarity : Obligations.PaletteIndexFollowsThePolarity := by
  intro rev p
  have hrev : rev = 0#1 ∨ rev = 1#1 := by revert rev; decide
  obtain rfl | rfl := hrev
  · exact ⟨rfl, rfl, rfl⟩
  · exact ⟨rfl, rfl, rfl⟩

/-- Settles O49: a step takes the head of the schedule and runs what it decodes to. -/
theorem stepRunsTheDecodedTransaction : Obligations.StepRunsTheDecodedTransaction :=
  fun _ _ _ hp => step_bus hp

/-- Settles O54: the words are closed, and the decoder computes. -/
theorem wordsOfTheSpecDecode : Obligations.WordsOfTheSpecDecode := by
  unfold Obligations.WordsOfTheSpecDecode
  decide

end Sys2Proof.Machine
end
